-- ==== Sys2Proof/Word.lean ====
section
/-! DEFINITION. Word types of the LX8 and the sparse table every register file and memory of the model is held in. -/

namespace Sys2Proof

/-- A 64-bit scalar, address or record field (R69). -/
abbrev Word := BitVec 64
/-- One byte of memory. -/
abbrev Byte := BitVec 8
/-- A vector value of 256 bytes (R103); row byte 0 is the low byte. -/
abbrev Row := BitVec 2048
/-- The fpstat flags (R51): [5] sat, [4] nv, [3] dz, [2] of, [1] uf, [0] nx. -/
abbrev Flags := BitVec 6

/-- A sparse table: entries at strictly rising keys, none equal to what an unlisted key reads as. -/
abbrev Tab (α : Type) := List (Nat × α)

end Sys2Proof
end

