-- ==== Sys2Proof/Syntax.lean ====
section
/-! DEFINITION. The instruction set: one constructor of Instr per row of the opcode table, and the names its fields take. -/

namespace Sys2Proof

/-- Condition codes of CMP, CMPI and FCMP (R26); the constructor order is the code order. -/
inductive Cond
  | eq | ne | lt | ge | le | gt | ltn | gen | len | gtn | bits | nbits | un | ord
deriving DecidableEq, Repr

/-- The two vector slots (R27). -/
inductive VSlot
  | va | vb
deriving DecidableEq, Repr

/-- Vector formats, fmt codes 0 to 7 (R27). -/
inductive VFmt
  | fp32 | bf16 | fp16 | i32 | i16 | i8 | n32 | n8
deriving DecidableEq, Repr

/-- Transform formats, codes 0 to 15 (R30). -/
inductive XFmt
  | fp32 | bf16 | fp16 | e4m3 | e5m2 | e2m1 | mxfp4 | sx7 | sx4 | sx2 | i32 | i16 | i8 | n32 | n16 | n8
deriving DecidableEq, Repr

/-- Coherence policies, cp codes 0 to 3 (R29). -/
inductive Pol
  | si | wi | wt | own
deriving DecidableEq, Repr

/-- ATOM and ATOML functions, codes 0 to 10 (R29, R140). -/
inductive AtomFn
  | add | min | max | minn | maxn | and | or | xor | xchg | cas | fadd
deriving DecidableEq, Repr

/-- Cell operations, codes 0 to 3 (R32). -/
inductive CellOp
  | madd | abda | sqda | maxp
deriving DecidableEq, Repr

/-- Memory types of a page (R131, R139, R263). -/
inductive MemType
  | hbm | pool | host | window | pod
deriving DecidableEq, Repr

/-- What a translation of a 64 KiB virtual page holds (R131, R139, R362; log entry 7): its frame number in the
space of its memory type, its rights, its cacheable bit, and for a window the owner's first shroud as gate id. -/
structure PageMap where
  frame : Nat
  mtype : MemType
  r : Bool
  w : Bool
  x : Bool
  a : Bool
  cacheable : Bool
  gate : BitVec 3
deriving DecidableEq, Repr

/-- The package mailbox and the partition mailboxes, and with them the register BARs (R375, R378). -/
inductive Mbox
  | pf
  | vf (p : BitVec 3)
deriving DecidableEq, Repr

/-- IDE streams of the host port: CXL.io by sub-stream, and CXL.cache with CXL.mem (R374). -/
inductive IdeStream
  | io (sub : BitVec 2)
  | cacheMem
deriving DecidableEq, Repr

/-- A host write as it arrives: how many bytes it carries, and the bytes as they would fill the register (R375). -/
structure HostWrite where
  bytes : BitVec 4
  data : BitVec 64
deriving DecidableEq, Repr

/-- A link, named by the chip and the port of it that the link leaves by (R386, R387). -/
structure ChipPort where
  chip : BitVec 12
  port : BitVec 3
deriving DecidableEq, Repr

/-- What bring-up finds beside the cores: a core's row map, column map and check column, where it has spares in use (R237), the Zellen
ports whose links train, and the pool ports that come up (R395). -/
structure BringUp where
  maps : List (BitVec 5 × List (BitVec 9) × List (BitVec 9) × BitVec 9)
  ports : BitVec 6
  poolPorts : BitVec 2
deriving DecidableEq, Repr

/-- What the power controller reads and asks for: the shrouds' loads in watts, and the clocks it would give them (R362, R393). -/
structure ClockPlan where
  loads : List (BitVec 8)
  clocks : List (BitVec 8)
deriving DecidableEq, Repr

/-- One constructor per row of spec/opcode_table.json, the instructions a bundle holds first, then the events of the part. Register fields hold the field's code. -/
inductive Instr
  /-- BRA (R77): Unconditional relative branch. -/
  | bra (off : BitVec 19)
  /-- BRC (R77): Relative branch taken when the predicate is true. -/
  | brc (p : BitVec 4) (off : BitVec 15)
  /-- BRM (R77): Multiway branch to the bt register of the first true of four tests. -/
  | brm (t0 t1 t2 t3 : BitVec 4) (bt : BitVec 3)
  /-- BRR (R77): Branch to a bt register. -/
  | brr (bt : BitVec 3)
  /-- CALL (R77): Relative call that writes the return address to bt7. -/
  | call (off : BitVec 19)
  /-- CALLR (R77): Call through a bt register that writes the return address to bt7. -/
  | callr (bt : BitVec 3)
  /-- RET (R77): Branch to bt7. -/
  | ret
  /-- LOOP (R80): Pushes a hardware loop level that runs the next n bundles s(s) times. -/
  | loop (cnt : BitVec 6) (len : BitVec 13)
  /-- WAIT_CTR_GE (R83): Blocks until a memory counter reaches a limit, then acquires at the scope. -/
  | waitCtrGe (scope : BitVec 3) (sa sb : BitVec 6)
  /-- WAIT_WP_GE (R83): Blocks until a copy channel's write pointer reaches a limit, then acquires the written range. -/
  | waitWpGe (scope : BitVec 3) (sa sb : BitVec 6)
  /-- WAIT_CO_DONE (R83): Blocks until a completion object is final, then acquires at the scope. -/
  | waitCoDone (scope : BitVec 3) (sa : BitVec 6)
  /-- WAIT_BANKS (R83): Blocks until the masked scratchpad banks are unowned or owned by this context. -/
  | waitBanks (sa : BitVec 6)
  /-- WAIT_TILES (R83): Blocks until no array operation is in flight on the masked tiles. -/
  | waitTiles (sa : BitVec 6)
  /-- WAIT_QNE (R83): Blocks until every masked queue head holds a row. -/
  | waitQne (sa : BitVec 6)
  /-- WAIT_TIME (R83): Blocks until the timebase reaches a value. -/
  | waitTime (sa : BitVec 6)
  /-- YIELD (R85): Offers issue to the next ready context. -/
  | yield
  /-- DONE (R86): Ends the work unit: a release, release of tiles, decrement of outstanding and release of banks. -/
  | done
  /-- TRAP (R87): Completes its bundle, then raises SOFT with a code. -/
  | trap (code : BitVec 8)
  /-- ERET (R348): Leaves the handler: restores latches and loops, re-injects the in-flight record and resumes at trap.epc. -/
  | eret
  /-- SEGB (R89): Opens a protected segment after results land, reads its table entry and takes a checkpoint. -/
  | segb (idx : BitVec 16)
  /-- SEGE (R357): Closes a segment: checks the step count and signature, then commits, reruns or reefs. -/
  | sege
  /-- RDV (R90): Blocks while a gang partner on the quad reruns a segment. -/
  | rdv (id : BitVec 8)
  /-- BKPT (R87): Completes its bundle, then raises BKPT. -/
  | bkpt (code : BitVec 8)
  /-- PHASE (R91): Release followed by an acquire at a scope. -/
  | phase (scope : BitVec 3)
  /-- ADD (R92): 64-bit wrapping add. -/
  | add (d a b : BitVec 6)
  /-- SUB (R92): 64-bit wrapping subtract. -/
  | sub (d a b : BitVec 6)
  /-- MUL (R92): Low 64 bits of a product. -/
  | mul (d a b : BitVec 6)
  /-- MULH (R92): High 64 bits of a signed product. -/
  | mulh (d a b : BitVec 6)
  /-- MULHN (R92): High 64 bits of a natural product. -/
  | mulhn (d a b : BitVec 6)
  /-- DIV (R47): Signed division that never traps. -/
  | div (d a b : BitVec 6)
  /-- DIVN (R47): Natural division that never traps. -/
  | divn (d a b : BitVec 6)
  /-- REM (R47): Signed remainder. -/
  | rem (d a b : BitVec 6)
  /-- REMN (R47): Natural remainder. -/
  | remn (d a b : BitVec 6)
  /-- AND (R92): Bitwise and. -/
  | and (d a b : BitVec 6)
  /-- OR (R92): Bitwise or. -/
  | or (d a b : BitVec 6)
  /-- XOR (R92): Bitwise exclusive or. -/
  | xor (d a b : BitVec 6)
  /-- ANDN (R92): a and not b. -/
  | andn (d a b : BitVec 6)
  /-- SHL (R92): Shift left by b[5:0]. -/
  | shl (d a b : BitVec 6)
  /-- SHR (R92): Logical shift right. -/
  | shr (d a b : BitVec 6)
  /-- SRA (R92): Arithmetic shift right. -/
  | sra (d a b : BitVec 6)
  /-- MIN (R92): Signed minimum. -/
  | min (d a b : BitVec 6)
  /-- MAX (R92): Signed maximum. -/
  | max (d a b : BitVec 6)
  /-- MINN (R92): Natural minimum. -/
  | minn (d a b : BitVec 6)
  /-- MAXN (R92): Natural maximum. -/
  | maxn (d a b : BitVec 6)
  /-- CLZ (R92): Count of leading zeros. -/
  | clz (d a : BitVec 6)
  /-- POPC (R92): Count of one bits. -/
  | popc (d a : BitVec 6)
  /-- SEL (R93): Selects s(a) or s(b) by a predicate. -/
  | sel (d a b : BitVec 6) (k : BitVec 4)
  /-- ADDI (R93): Adds a sign-extended immediate. -/
  | addi (d a : BitVec 6) (imm : BitVec 10)
  /-- ANDI (R93): And with a zero-extended immediate. -/
  | andi (d a : BitVec 6) (imm : BitVec 10)
  /-- ORI (R93): Or with a zero-extended immediate. -/
  | ori (d a : BitVec 6) (imm : BitVec 10)
  /-- XORI (R93): Exclusive or with a zero-extended immediate. -/
  | xori (d a : BitVec 6) (imm : BitVec 10)
  /-- SHLI (R93): Shift left by an immediate. -/
  | shli (d a n : BitVec 6)
  /-- SHRI (R93): Logical shift right by an immediate. -/
  | shri (d a n : BitVec 6)
  /-- SRAI (R93): Arithmetic shift right by an immediate. -/
  | srai (d a n : BitVec 6)
  /-- LI (R94): Loads a sign-extended 16-bit immediate. -/
  | li (d : BitVec 6) (imm : BitVec 16)
  /-- LIS (R94): Shifts s(d) left by 16 and inserts an immediate. -/
  | lis (d : BitVec 6) (imm : BitVec 16)
  /-- ADDS (R93): Adds s(b) shifted left by k. -/
  | adds (d a b : BitVec 6) (k : BitVec 4)
  /-- CMP (R95): Compares two scalars into a predicate pair. -/
  | cmp (pair : BitVec 3) (cond : Cond) (a b : BitVec 6)
  /-- CMPI (R95): Compares a scalar with an immediate into a predicate pair. -/
  | cmpi (pair : BitVec 3) (cond : Cond) (a : BitVec 6) (imm : BitVec 9)
  /-- PAND (R96): Predicate and into a pair. -/
  | pand (pair : BitVec 3) (pa pb : BitVec 4)
  /-- POR (R96): Predicate or into a pair. -/
  | por (pair : BitVec 3) (pa pb : BitVec 4)
  /-- PXOR (R96): Predicate exclusive or into a pair. -/
  | pxor (pair : BitVec 3) (pa pb : BitVec 4)
  /-- SETX (R98): Sets an index base to (s(a) + imm8) mod 192. -/
  | setx (x : BitVec 2) (a : BitVec 6) (imm : BitVec 8)
  /-- MOVBT (R99): Moves a scalar to a branch-target register. -/
  | movbt (bt : BitVec 3) (a : BitVec 6)
  /-- MFBT (R99): Moves a branch-target register to a scalar. -/
  | mfbt (d : BitVec 6) (bt : BitVec 3)
  /-- MFC (R72): Reads a control register. -/
  | mfc (d : BitVec 6) (cr : BitVec 12)
  /-- MTC (R72): Writes a control register, with the checks and side effects of that register. -/
  | mtc (cr : BitVec 12) (a : BitVec 6)
  /-- FADD (R100): FP32 add. -/
  | fadd (d a b : BitVec 6)
  /-- FSUB (R100): FP32 subtract. -/
  | fsub (d a b : BitVec 6)
  /-- FMUL (R100): FP32 multiply. -/
  | fmul (d a b : BitVec 6)
  /-- FFMA (R100): FP32 fused multiply-add into s(d). -/
  | ffma (d a b : BitVec 6)
  /-- FMIN (R100): FP32 minimum number. -/
  | fmin (d a b : BitVec 6)
  /-- FMAX (R100): FP32 maximum number. -/
  | fmax (d a b : BitVec 6)
  /-- FCMP (R95): FP32 compare into a predicate pair. -/
  | fcmp (pair : BitVec 3) (cond : Cond) (a b : BitVec 6)
  /-- FCVTI (R101): Converts FP32 to I64 or N64. -/
  | fcvti (n64 : Bool) (d a : BitVec 6)
  /-- ICVTF (R101): Converts I64 or N64 to FP32. -/
  | icvtf (n64 : Bool) (d a : BitVec 6)
  /-- VADD (R111): Lane-wise add. -/
  | vadd (vs : VSlot) (fmt : VFmt) (nwb : Bool) (d : BitVec 6) (a b : BitVec 6)
  /-- VSUB (R111): Lane-wise subtract. -/
  | vsub (vs : VSlot) (fmt : VFmt) (nwb : Bool) (d : BitVec 6) (a b : BitVec 6)
  /-- VMUL (R111): Lane-wise multiply. -/
  | vmul (vs : VSlot) (fmt : VFmt) (nwb : Bool) (d : BitVec 6) (a b : BitVec 6)
  /-- VFMA (R111): Lane-wise fused c + a*b. -/
  | vfma (vs : VSlot) (fmt : VFmt) (nwb : Bool) (d : BitVec 6) (a b : BitVec 6)
  /-- VFMS (R111): Lane-wise fused c - a*b. -/
  | vfms (vs : VSlot) (fmt : VFmt) (nwb : Bool) (d : BitVec 6) (a b : BitVec 6)
  /-- VMIN (R111): Lane-wise minimum. -/
  | vmin (vs : VSlot) (fmt : VFmt) (nwb : Bool) (d : BitVec 6) (a b : BitVec 6)
  /-- VMAX (R111): Lane-wise maximum. -/
  | vmax (vs : VSlot) (fmt : VFmt) (nwb : Bool) (d : BitVec 6) (a b : BitVec 6)
  /-- VABS (R111): Lane-wise absolute value. -/
  | vabs (vs : VSlot) (fmt : VFmt) (nwb : Bool) (d : BitVec 6) (a : BitVec 6)
  /-- VNEG (R111): Lane-wise negation. -/
  | vneg (vs : VSlot) (fmt : VFmt) (nwb : Bool) (d : BitVec 6) (a : BitVec 6)
  /-- VABD (R111): Lane-wise absolute difference. -/
  | vabd (vs : VSlot) (fmt : VFmt) (nwb : Bool) (d : BitVec 6) (a b : BitVec 6)
  /-- VAND (R114): Bitwise and of 2048 bits. -/
  | vand (vs : VSlot) (fmt : VFmt) (nwb : Bool) (d : BitVec 6) (a b : BitVec 6)
  /-- VOR (R114): Bitwise or of 2048 bits. -/
  | vor (vs : VSlot) (fmt : VFmt) (nwb : Bool) (d : BitVec 6) (a b : BitVec 6)
  /-- VXOR (R114): Bitwise exclusive or of 2048 bits. -/
  | vxor (vs : VSlot) (fmt : VFmt) (nwb : Bool) (d : BitVec 6) (a b : BitVec 6)
  /-- VSHL (R114): Lane-wise shift left. -/
  | vshl (vs : VSlot) (fmt : VFmt) (nwb : Bool) (d : BitVec 6) (a b : BitVec 6)
  /-- VSHR (R114): Lane-wise logical shift right. -/
  | vshr (vs : VSlot) (fmt : VFmt) (nwb : Bool) (d : BitVec 6) (a b : BitVec 6)
  /-- VSRA (R114): Lane-wise arithmetic shift right. -/
  | vsra (vs : VSlot) (fmt : VFmt) (nwb : Bool) (d : BitVec 6) (a b : BitVec 6)
  /-- VADDS (R113): Lane-wise saturating add. -/
  | vadds (vs : VSlot) (fmt : VFmt) (nwb : Bool) (d : BitVec 6) (a b : BitVec 6)
  /-- VSUBS (R113): Lane-wise saturating subtract. -/
  | vsubs (vs : VSlot) (fmt : VFmt) (nwb : Bool) (d : BitVec 6) (a b : BitVec 6)
  /-- VCMPEQ (R115): Lane-wise equality mask. -/
  | vcmpeq (vs : VSlot) (fmt : VFmt) (nwb : Bool) (d : BitVec 6) (a b : BitVec 6)
  /-- VCMPLT (R115): Lane-wise less-than mask. -/
  | vcmplt (vs : VSlot) (fmt : VFmt) (nwb : Bool) (d : BitVec 6) (a b : BitVec 6)
  /-- VCMPLE (R115): Lane-wise less-or-equal mask. -/
  | vcmple (vs : VSlot) (fmt : VFmt) (nwb : Bool) (d : BitVec 6) (a b : BitVec 6)
  /-- VSEL (R116): Bitwise select under the destination as mask. -/
  | vsel (vs : VSlot) (fmt : VFmt) (nwb : Bool) (d : BitVec 6) (a b : BitVec 6)
  /-- VEXP2 (R118): Lane-wise EXP2. -/
  | vexp2 (vs : VSlot) (fmt : VFmt) (nwb : Bool) (d : BitVec 6) (a : BitVec 6)
  /-- VLOG2 (R118): Lane-wise LOG2. -/
  | vlog2 (vs : VSlot) (fmt : VFmt) (nwb : Bool) (d : BitVec 6) (a : BitVec 6)
  /-- VRCP (R118): Lane-wise reciprocal. -/
  | vrcp (vs : VSlot) (fmt : VFmt) (nwb : Bool) (d : BitVec 6) (a : BitVec 6)
  /-- VRSQ (R118): Lane-wise reciprocal square root. -/
  | vrsq (vs : VSlot) (fmt : VFmt) (nwb : Bool) (d : BitVec 6) (a : BitVec 6)
  /-- VCVT (R119): Converts lanes between vector formats. -/
  | vcvt (vs : VSlot) (fmt : VFmt) (nwb : Bool) (d : BitVec 6) (a : BitVec 6) (from_ : VFmt) (inf : Bool)
  /-- VBCAST (R120): Broadcasts one lane. -/
  | vbcast (vs : VSlot) (fmt : VFmt) (nwb : Bool) (d : BitVec 6) (a : BitVec 6) (lane : BitVec 6)
  /-- VBCS (R120): Broadcasts a scalar. -/
  | vbcs (vs : VSlot) (fmt : VFmt) (nwb : Bool) (d : BitVec 6) (sa : BitVec 6)
  /-- VPERM (R121): Permutes lanes by an index vector. -/
  | vperm (vs : VSlot) (fmt : VFmt) (nwb : Bool) (d : BitVec 6) (a b : BitVec 6)
  /-- VREDADD (R124): Sequential sum of lanes into lane 0. -/
  | vredadd (vs : VSlot) (fmt : VFmt) (nwb : Bool) (d : BitVec 6) (a : BitVec 6)
  /-- VREDMAX (R124): Maximum of lanes into lane 0. -/
  | vredmax (vs : VSlot) (fmt : VFmt) (nwb : Bool) (d : BitVec 6) (a : BitVec 6)
  /-- VREDMIN (R124): Minimum of lanes into lane 0. -/
  | vredmin (vs : VSlot) (fmt : VFmt) (nwb : Bool) (d : BitVec 6) (a : BitVec 6)
  /-- VSCAN (R125): Inclusive prefix sum. -/
  | vscan (vs : VSlot) (fmt : VFmt) (nwb : Bool) (d : BitVec 6) (a : BitVec 6)
  /-- VDOT4 (R126): Four-way 8-bit dot product accumulated into 32-bit lanes. -/
  | vdot4 (vs : VSlot) (fmt : VFmt) (nwb : Bool) (d : BitVec 6) (a b : BitVec 6)
  /-- VMOV (R120): Copies a vector. -/
  | vmov (vs : VSlot) (fmt : VFmt) (nwb : Bool) (d : BitVec 6) (a : BitVec 6)
  /-- VIOTA (R120): Writes s(a)+i into lane i. -/
  | viota (vs : VSlot) (fmt : VFmt) (nwb : Bool) (d : BitVec 6) (sa : BitVec 6)
  /-- VMSKP (R117): Sets a predicate pair when any lane is nonzero. -/
  | vmskp (vs : VSlot) (fmt : VFmt) (pair : BitVec 3) (a : BitVec 6)
  /-- VMSKC (R117): Counts the nonzero lanes into a scalar. -/
  | vmskc (vs : VSlot) (fmt : VFmt) (sd a : BitVec 6)
  /-- VSHUF (R122): Applies a fixed lane pattern. -/
  | vshuf (vs : VSlot) (fmt : VFmt) (nwb : Bool) (d : BitVec 6) (a : BitVec 6) (pat : BitVec 6)
  /-- VMOVS (R123): Moves one lane to a scalar. -/
  | vmovs (vs : VSlot) (fmt : VFmt) (sd a lane : BitVec 6)
  /-- VINS (R123): Inserts a scalar into one lane. -/
  | vins (vs : VSlot) (fmt : VFmt) (nwb : Bool) (d : BitVec 6) (sa lane : BitVec 6)
  /-- LDL (R135): Loads a row from the scratchpad. -/
  | ldl (data base : BitVec 6) (imm : BitVec 8)
  /-- STL (R135): Stores a row to the scratchpad. -/
  | stl (data base : BitVec 6) (imm : BitVec 8)
  /-- LDLP (R135): Local row load with base post-increment. -/
  | ldlp (data base : BitVec 6) (imm : BitVec 8)
  /-- STLP (R135): Local row store with base post-increment. -/
  | stlp (data base : BitVec 6) (imm : BitVec 8)
  /-- LDLS (R135): Loads a local scalar of 1-8 bytes. -/
  | ldls (data base : BitVec 6) (sz : BitVec 2) (off : BitVec 6)
  /-- STLS (R135): Stores a local scalar of 1-8 bytes. -/
  | stls (data base : BitVec 6) (sz : BitVec 2) (off : BitVec 6)
  /-- LDG (R135): Interlocked global row load under a policy. -/
  | ldg (data base : BitVec 6) (cp : Pol) (imm : BitVec 8)
  /-- STG (R135): Global row store under a policy. -/
  | stg (data base : BitVec 6) (cp : Pol) (imm : BitVec 8)
  /-- LDGP (R135): Global row load with post-increment. -/
  | ldgp (data base : BitVec 6) (cp : Pol) (imm : BitVec 8)
  /-- STGP (R135): Global row store with post-increment. -/
  | stgp (data base : BitVec 6) (cp : Pol) (imm : BitVec 8)
  /-- LDGS (R135): Interlocked global scalar load. -/
  | ldgs (data base : BitVec 6) (cp : Pol) (sz : BitVec 2) (off : BitVec 6)
  /-- STGS (R135): Global scalar store. -/
  | stgs (data base : BitVec 6) (cp : Pol) (sz : BitVec 2) (off : BitVec 6)
  /-- ATOM (R140): Global atomic at home or at the registrant, returning the old value. -/
  | atom (f : AtomFn) (w64 : Bool) (cp : Pol) (data base : BitVec 6)
  /-- ATOML (R141): Atomic on a scratchpad word. -/
  | atoml (f : AtomFn) (w64 : Bool) (data base : BitVec 6)
  /-- FENCE_ACQ (R142): Acquire: discards older SI copies in the scope's range. -/
  | fenceAcq (scope : BitVec 3)
  /-- FENCE_REL (R142): Release: publishes unpublished words and waits for their acknowledgement. -/
  | fenceRel (scope : BitVec 3)
  /-- FENCE_ACQREL (R142): Release followed by acquire. -/
  | fenceAcqrel (scope : BitVec 3)
  /-- CLAIMB (R145): Claims scratchpad banks for the launch. -/
  | claimb (mask : BitVec 6)
  /-- RELB (R145): Releases scratchpad banks. -/
  | relb (mask : BitVec 6)
  /-- CLAIMT (R145): Claims accumulator tiles for the context. -/
  | claimt (mask : BitVec 6)
  /-- RELT (R145): Releases tiles once nothing is in flight on them. -/
  | relt (mask : BitVec 6)
  /-- PRFG (R144): Prefetch hint over a byte range. -/
  | prfg (len base : BitVec 6) (cp : Pol) (imm : BitVec 8)
  /-- PUBL (R144): Publishes unpublished words of a range and waits for acknowledgement. -/
  | publ (len base : BitVec 6) (imm : BitVec 8)
  /-- INVL (R144): Discards SI copies of a range. -/
  | invl (len base : BitVec 6) (imm : BitVec 8)
  /-- LDLX (R147): Loads and expands a codec-encoded row. -/
  | ldlx (data base : BitVec 6) (imm : BitVec 8)
  /-- XCVT (R151): Converts elements between formats. -/
  | xcvt (tgt from_ : XFmt) (stat inf : Bool) (d a : BitVec 6)
  /-- XQNT (R153): Quantises into E4M3, MXFP4 or SX blocks. -/
  | xqnt (tgt : XFmt) (bf : Bool) (sc : BitVec 3) (stat : Bool) (d a : BitVec 6)
  /-- XDEQ (R154): Dequantises to FP32 or BF16. -/
  | xdeq (from_ : XFmt) (bf : Bool) (sc : BitVec 3) (d a : BitVec 6)
  /-- XTRN (R156): Transposes 8 rows of elements. -/
  | xtrn (w : BitVec 2) (d a : BitVec 6)
  /-- XEXP (R148): Expands one codec block. -/
  | xexp (ceil : BitVec 2) (d a : BitVec 6)
  /-- XCMP (R148): Compresses a 128-byte block with the codec. -/
  | xcmp (ceil : BitVec 2) (d a : BitVec 6)
  /-- XSCL (R152): Copies a row into a scale register. -/
  | xscl (sc : BitVec 3) (a : BitVec 6)
  /-- XSTAT (R155): Reads, and optionally clears, the conversion statistics. -/
  | xstat (clr : Bool) (d : BitVec 6)
  /-- XPACK (R157): Packs the low bits of 32-bit lanes into narrow elements. -/
  | xpack (f : XFmt) (d a : BitVec 6)
  /-- XUNPK (R157): Unpacks narrow elements into 32-bit lanes. -/
  | xunpk (f : XFmt) (d a : BitVec 6)
  /-- TDESC (R162): Loads and checks a tile descriptor. -/
  | tdesc (td : BitVec 4) (sa : BitVec 6)
  /-- MMA (R169): Queues an outer-product accumulation into tiles under a cell operation. -/
  | mma (tile ta tb : BitVec 4) (op : CellOp) (cnt : BitVec 4) (z ck : Bool)
  /-- MMAP (R169): MMA with the cell operation taken from the pattern per step. -/
  | mmap (tile ta tb : BitVec 4) (cnt : BitVec 4) (z ck : Bool)
  /-- CPAT (R170): Sets the cell pattern. -/
  | cpat (sa : BitVec 6)
  /-- MZERO (R172): Zeroes tiles and validates their residues. -/
  | mzero (tile cnt : BitVec 4)
  /-- MDRAIN (R173): Converts tiles and writes them to the scratchpad, with optional codec, statistics and check. -/
  | mdrain (tile : BitVec 4) (fmt : XFmt) (sa : BitVec 6) (cnt : BitVec 4) (codec : BitVec 2) (stat chk : Bool)
  /-- MBOOM_RMAX (R178): Writes row maxima to the scratchpad. -/
  | mboomRmax (tile : BitVec 4) (sa : BitVec 6) (cnt : BitVec 4)
  /-- MBOOM_RSUM (R178): Writes row sums to the scratchpad. -/
  | mboomRsum (tile : BitVec 4) (sa : BitVec 6) (cnt : BitVec 4)
  /-- MBOOM_RSCALE (R178): Scales each row by a factor. -/
  | mboomRscale (tile : BitVec 4) (sa : BitVec 6) (cnt : BitVec 4)
  /-- MBOOM_CSCALE (R178): Scales each column by a factor. -/
  | mboomCscale (tile : BitVec 4) (sa : BitVec 6) (cnt : BitVec 4)
  /-- MBOOM_SEXP (R178): Scaled exponent of cells against the carry maximum. -/
  | mboomSexp (tile : BitVec 4) (sa : BitVec 6) (cnt : BitVec 4)
  /-- MBOOM_NORM (R178): Normalises rows by the carry sum. -/
  | mboomNorm (tile cnt : BitVec 4)
  /-- MBOOM_CZERO (R178): Resets the carry and the row status. -/
  | mboomCzero (tile cnt : BitVec 4)
  /-- MBOOM_RSTAT (R178): Writes the row statuses to the scratchpad. -/
  | mboomRstat (tile : BitVec 4) (sa : BitVec 6) (cnt : BitVec 4)
  /-- ATTN (R181): Runs paged attention over a token range through the sequence walker. -/
  | attn (tile tq : BitVec 4) (sh sr : BitVec 6)
  /-- ACARRY_EXP (R186): Exports 64 rows of carry m or l to a vector row. -/
  | acarryExp (tile : BitVec 4) (l : Bool) (j : BitVec 2) (row : BitVec 6)
  /-- ACARRY_IMP (R186): Imports a vector row into 64 rows of carry m or l. -/
  | acarryImp (tile : BitVec 4) (l : Bool) (j : BitVec 2) (row : BitVec 6)
  /-- MSTAT (R187): Reads an array status item when its entry runs. -/
  | mstat (sa : BitVec 6) (item : BitVec 4)
  /-- COPY (R200): Starts a strided copy on a channel. -/
  | copy (sa : BitVec 6) (ch : BitVec 4)
  /-- GATH (R200): Starts an indexed gather. -/
  | gath (sa : BitVec 6) (ch : BitVec 4)
  /-- SCAT (R200): Starts an indexed scatter. -/
  | scat (sa : BitVec 6) (ch : BitVec 4)
  /-- PUT (R205): Sends bytes into a pod window. -/
  | put (sa : BitVec 6) (win : BitVec 10)
  /-- GET (R205): Reads bytes from a pod window. -/
  | get (sa : BitVec 6) (win : BitVec 10)
  /-- COLL (R206): Tree-ordered collective reduction. -/
  | coll (sa : BitVec 6)
  /-- SIGNAL (R207): Release, then adds a value to a counter at home. -/
  | signal (sa sb : BitVec 6) (scope : BitVec 3)
  /-- BAR (R208): Release, arrives at a barrier, blocks for the round, then acquires. -/
  | bar (scope : BitVec 3) (id : BitVec 7)
  /-- LAUNCH (R210): Releases at PART and inserts a launch record into the partition. -/
  | launch (sa : BitVec 6)
  /-- TAKE (R212): Finishes the previous taken units and takes up to max units of a take launch. -/
  | take (sa sb : BitVec 6) (max : BitVec 10)
  /-- TRIG (R213): Marks the unit triggered with a release at the launch scope. -/
  | trig
  /-- HIST (R214): Pushes ids into a route histogram. -/
  | hist (sa sb : BitVec 6)
  /-- HLATCH (R214): Writes expert launch counts and params from a histogram and clears it. -/
  | hlatch (sa : BitVec 6)
  /-- TOPK (R215): Streams scores into a top-k selector instance. -/
  | topk (sa : BitVec 6)
  /-- TOPKR (R216): Writes the instance's result and empties it. -/
  | topkr (sa : BitVec 6)
  /-- KVAPP (R276): Places an append entry in the core's journal. -/
  | kvapp (sa sb : BitVec 6)
  /-- KVSYNC (R278): Waits until the context's journal entries are filed, then releases. -/
  | kvsync (scope : BitVec 3)
  /-- KVFORK (R266): Creates a sequence sharing the source's blocks. -/
  | kvfork (sa sb : BitVec 6)
  /-- KVFREE (R265): Frees a sequence slot and bumps its generation. -/
  | kvfree (sa : BitVec 6)
  /-- KVTRIM (R283): Trims a sequence's lengths. -/
  | kvtrim (sa sb : BitVec 6)
  /-- KVCMPT (R283): Compacts a sequence's holes. -/
  | kvcmpt (sa : BitVec 6)
  /-- KVPF (R217): Asks for promotion of a range's pages. -/
  | kvpf (sa sb : BitVec 6)
  /-- KVDEM (R281): Demotes a page's block to E4M3 or MXFP4. -/
  | kvdem (sa sb : BitVec 6) (mx : Bool)
  /-- KVLEND (R282): Starts a lend of a page's block to a lender chip. -/
  | kvlend (sa : BitVec 6)
  /-- KVRSV (R279): Reserves blocks for the launch and sets a predicate pair. -/
  | kvrsv (sa : BitVec 6) (pair : BitVec 3)
  /-- KVQRY (R217): Reads an item of a sequence or store. -/
  | kvqry (sa sb : BitVec 6) (item : BitVec 3)
  /-- TIME (R219): Samples the timebase. -/
  | time (sa : BitVec 6)
  /-- PERF (R219): Samples a performance counter. -/
  | perf (sa : BitVec 6) (ctr : BitVec 8)
  /-- SYSC_VERSION (R220): Returns the controller firmware version. -/
  | syscVersion (sa : BitVec 6)
  /-- SYSC_HEALTH (R220): Returns HEALTH. -/
  | syscHealth (sa : BitVec 6)
  /-- SYSC_BARRIER_SETUP (R220): Sets a barrier's participant count. -/
  | syscBarrierSetup (sa : BitVec 6)
  /-- SYSC_BARRIER_CANCEL (R220): Cancels a barrier round. -/
  | syscBarrierCancel (sa : BitVec 6)
  /-- SYSC_RELEASE_HELD (R301): Releases a held-failed launch. -/
  | syscReleaseHeld (sa : BitVec 6)
  /-- SYSC_CANCEL_HELD (R301): Cancels a held-failed launch as faulted, killed. -/
  | syscCancelHeld (sa : BitVec 6)
  /-- WINREG (R204): Registers a pod window. -/
  | winreg (sa sb : BitVec 6)
  /-- QSEND (R221): Sends a row to a core's queue. -/
  | qsend (sa sb : BitVec 6)
  /-- SYSC_UNKNOWN_SERVICE (R220): A SYSC naming an unknown service answers all ones. -/
  | syscUnknownService (sa : BitVec 6) (svc : BitVec 10)
  /-- BUNDLE (R13): A bundle is fetched, decoded, waits until its sources are ready, reads its banks and issues all eight slots as one unit. -/
  | bundle (core : BitVec 5)
  /-- L2_UE_DETECT (R341): A slice finds an uncorrectable L2 line and refetches it or contains the victims. -/
  | l2UeDetect (line : Nat) (set : BitVec 14) (way : BitVec 8)
  /-- GLOBAL_LOAD_LANDS (R136): An interlocked global load, atomic or engine result lands in its busy register, clearing the busy bit or marking the register poisoned or window-aborted. -/
  | globalLoadLands (load : Nat)
  /-- CONTEXT_SWITCH (R225): In a wait step with nothing in flight, issue passes to the next ready context, and the old holder's latches are emptied. -/
  | contextSwitch (core : BitVec 5)
  /-- HALYARD_ENTRY_START (R163): The halyard starts a queued array entry on its lane when the context's earlier entries have ended. -/
  | halyardEntryStart (core : BitVec 5) (boom : Bool)
  /-- MMA_GROUP_END (R189): After every 64 steps of an MMA the halyard reaches a stop point, where it may hand over the lane or pre-empt. -/
  | mmaGroupEnd (core : BitVec 5)
  /-- ATTN_PAGE_END (R183): The boom finishes one page of an ATTN, updating O and the carry, and the next page begins. -/
  | attnPageEnd (core : BitVec 5)
  /-- HALYARD_ENTRY_END (R164): A halyard entry such as MDRAIN, MBOOM, MSTAT or an MMA finishes its last write, leaving the scoreboard and freeing its queue place, tiles and busy destination. -/
  | halyardEntryEnd (core : BitVec 5) (boom : Bool)
  /-- KV_FAULT_SERVICE (R284): The controller services a page-boundary KV fault, then the halyard re-issues the ATTN from that page or the launch is terminated. -/
  | kvFaultService (core : BitVec 5)
  /-- QSEND_DEFERRED_DELIVER (R221): A QSEND forked at SEGE delivers its row when the target queue has room. -/
  | qsendDeferredDeliver (thread : Nat)
  /-- ENGINE_ACCEPT (R192): An engine takes a command from the core's engine queue. -/
  | engineAccept (core : BitVec 5)
  /-- COPY_GRANULE_LANDS (R202): A granule of delivery order lands at every target, advancing the write pointer. -/
  | copyGranuleLands (core : BitVec 5) (ch : BitVec 4)
  /-- ENGINE_THREAD_COMPLETE (R195): An engine thread writes its final state and progress as a release. -/
  | engineThreadComplete (thread : Nat)
  /-- KVLEND_RUN (R282): The lend checks the page, takes a frame, copies the block and commits the page as remote. -/
  | kvlendRun (thread : Nat)
  /-- FILER_FILE_ENTRY (R277): The append filer files or drops one journal entry, splitting shared blocks, and commits. -/
  | filerFileEntry (core : BitVec 5)
  /-- SPINDLE_DECIDE (R294): The spindle checks a submitted record and accepts or refuses it. -/
  | spindleDecide (sub : Nat)
  /-- DEPENDENCE_DECIDED (R300): A dependence's completion object becomes final and the held launch is counted or held failed. -/
  | dependenceDecided (launch : Nat)
  /-- DISPATCH_GANG (R307): The dispatcher places a gang of units on idle contexts. -/
  | dispatchGang (launch : Nat)
  /-- HOME_READ (R332): An SI or WT read of a line is answered at home or forwarded. -/
  | homeRead (req : Nat) (evict : Bool)
  /-- HOME_WI_READ (R332): A WI read is answered and the core is added to the sharers. -/
  | homeWiRead (req : Nat) (evict : Bool)
  /-- HOME_WRITE_ACCEPT (R332): A write is accepted: slots are revoked, sharers invalidated, the write performed and acknowledged. -/
  | homeWriteAccept (req : Nat) (evict : Bool)
  /-- HOME_OWN_REQUEST (R332): An OWN request registers words to a context. -/
  | homeOwnRequest (req : Nat) (evict : Bool)
  /-- SCRUBBER_RUN (R275): The scrubber lowers excess refcounts and pushes unnamed blocks. -/
  | scrubberRun (p : BitVec 3) (store : BitVec 6)
  /-- FORWARDED_READ (R317): A registrant answers a forwarded read. -/
  | forwardedRead (req : Nat)
  /-- WALKER_ANSWER (R132): The shroud's walker answers a TLB miss, or the sequence walker resolves an ATTN or KV handle, letting the blocked bundle proceed. -/
  | walkerAnswer (core : BitVec 5)
  /-- TIMEBASE_TICK (R83): The 1 GHz timebase advances, so a WAIT TIME whose limit it reaches may issue. -/
  | timebaseTick
  /-- PASSED_OVER_TIMEOUT (R307): An entry passed over for the aging period gets idle contexts reserved for it. -/
  | passedOverTimeout (launch : Nat)
  /-- PUT_ACK_RETURN (R205): The owner's acknowledgement returns; the issuer adds to its acknowledged counter and co becomes done. -/
  | putAckReturn (thread : Nat)
  /-- SHROUD_DRAIN_END (R365): When crossing transactions have ended, the partition starts zeroising. -/
  | shroudDrainEnd (k : BitVec 3)
  /-- SHROUD_ZEROISE_END (R365): Zeroising ends, the shroud goes off and the host is notified. -/
  | shroudZeroiseEnd (k : BitVec 3)
  /-- MOVE_COMMIT (R274): A block move (ladder demotion or spill, promotion, or a lent frame brought home) finishes its copy and commits, forwarding the block, then rewrites holders and releases it. -/
  | moveCommit (p : BitVec 3) (store : BitVec 6) (ref : BitVec 32)
  /-- LADDER_RUN (R280): The controller demotes or spills candidate blocks by class and age. -/
  | ladderRun (p : BitVec 3) (store : BitVec 6)
  /-- CONTROLLER_PROMOTE (R284): The controller moves a block to tier 0 on a promote request. -/
  | controllerPromote (p : BitVec 3) (store : BitVec 6) (ref : BitVec 32)
  /-- PREEMPTION_CALL (R311): A waiting entry calls for pre-emption and the controller chooses victim gangs. -/
  | preemptionCall (launch : Nat)
  /-- BIAS_FLIP_EFFECT (R383): Once drains and write-backs are done, the flip takes effect and a notice is written. -/
  | biasFlipEffect (p : BitVec 3) (page : BitVec 23)
  /-- MIGRATE_PAUSE (R389): Stops dispatch and pre-empts every context of the partition. -/
  | migratePause (mb : Mbox) (tag : BitVec 8) (goOn : Bool)
  /-- PUT_LANDED_AT_OWNER (R337): The owner adds a put's length to its landed counter once every byte is accepted. -/
  | putLandedAtOwner (p : BitVec 3) (win : BitVec 10) (chip : BitVec 12) (off : Nat) (data : List (BitVec 8))
  /-- FRAME_TAKE (R388): The lender's controller serves a take message from its free stack of frames. -/
  | frameTake (p : BitVec 3) (win : BitVec 10) (chip : BitVec 12)
  /-- FRAME_RETURN (R259): A return message puts a borrowed frame back in the lender's pool. -/
  | frameReturn (p : BitVec 3) (win : BitVec 10) (frame : BitVec 24)
  /-- HOME_SURRENDER (R318): A context surrenders its registrations and returns its words. -/
  | homeSurrender (g : BitVec 7) (line : Nat)
  /-- REGISTRANT_REVOCATION (R333): A registrant answers a revocation with its current words. -/
  | registrantRevocation (g : BitVec 7) (line : Nat)
  /-- CORE_INVALIDATION (R332): A core drops its WI copy on an invalidation, or answers not held. -/
  | coreInvalidation (core : BitVec 5) (line : Nat)
  /-- SUMMARY_BUCKET_CLEAR (R330): A slice clears an overflow-summary bucket by invalidating its copies. -/
  | summaryBucketClear (k : BitVec 3) (bucket : BitVec 12)
  /-- RESULT_LANDS (R14): A fixed-latency result reaches its due step and writes its register, latch and flags, slipping a bank write if needed. -/
  | resultLands (g : BitVec 7)
  /-- TRANSLATION_CHANGE (R351): The controller changes a translation, invalidates TLBs and waits for old accesses. -/
  | translationChange (p : BitVec 3) (vpage : BitVec 48) (map : Option PageMap)
  /-- MAP_CHANGE (R239): The controller pre-empts a core's contexts and rewrites its row and column maps. -/
  | mapChange (core : BitVec 5) (rows cols : List (BitVec 9)) (ckcol : BitVec 9)
  /-- CORE_REEF (R358): The controller reefs a core or takes it out of service. -/
  | coreReef (core : BitVec 5) (out : Bool)
  /-- DEBUG_RESUME (R349): The controller resumes a context stopped for a debugger. -/
  | debugResume (g : BitVec 7)
  /-- LAUNCH_WINDOW_STORE (R298): A host 8-byte store to LAUNCH inserts a record or is dropped. -/
  | launchWindowStore (p : BitVec 3) (value : BitVec 64)
  /-- SHROUD_OPEN (R361): cmd 1 while off opens the partition's gates. -/
  | shroudOpen (k : BitVec 3)
  /-- SHROUD_RESET (R365): cmd 1 while ready closes the gates and drains the partition. -/
  | shroudReset (k : BitVec 3)
  /-- MBOX_CONFIGURE_STORE (R398): Configures a store from a descriptor and scrubs it. -/
  | mboxConfigureStore (mb : Mbox) (tag : BitVec 8)
  /-- MBOX_UNCONFIGURE_STORE (R378): Unconfigures a store that is not live. -/
  | mboxUnconfigureStore (mb : Mbox) (tag : BitVec 8)
  /-- MBOX_REGISTER_POD_WINDOW (R371): Registers a pod window at a chosen id. -/
  | mboxRegisterPodWindow (mb : Mbox) (tag : BitVec 8)
  /-- MBOX_WITHDRAW_POD_WINDOW (R378): Withdraws a pod window. -/
  | mboxWithdrawPodWindow (mb : Mbox) (tag : BitVec 8)
  /-- MBOX_SET_SPN_CTL (R299): Sets the spindle control register. -/
  | mboxSetSpnCtl (mb : Mbox) (tag : BitVec 8)
  /-- MBOX_SET_FAULT_RECORD_AREA (R379): Sets the fault-record ring and counter. -/
  | mboxSetFaultRecordArea (mb : Mbox) (tag : BitVec 8)
  /-- MBOX_SET_TRAP_RECORDS (R379): Sets each context's trap.rec. -/
  | mboxSetTrapRecords (mb : Mbox) (tag : BitVec 8)
  /-- MBOX_SET_PIN_OR_CLASS (R379): Sets a block's pin or a sequence's class. -/
  | mboxSetPinOrClass (mb : Mbox) (tag : BitVec 8)
  /-- MBOX_DECLARE_MEASURED_IMAGE (R391): Digests an image and extends a measurement slot. -/
  | mboxDeclareMeasuredImage (mb : Mbox) (tag : BitVec 8)
  /-- MBOX_WRITE_WINDOW_ENTRY (R362): Writes a window-table entry between partitions. -/
  | mboxWriteWindowEntry (mb : Mbox) (tag : BitVec 8)
  /-- MBOX_HELD_LAUNCH_PRIVILEGE (R378): Grants or revokes the held-launch privilege. -/
  | mboxHeldLaunchPrivilege (mb : Mbox) (tag : BitVec 8)
  /-- MBOX_OFFER_LENDING_POOL (R388): Offers a lending pool of frames. -/
  | mboxOfferLendingPool (mb : Mbox) (tag : BitVec 8)
  /-- MBOX_WITHDRAW_LENDING_POOL (R282): Withdraws a lending pool and brings frames home. -/
  | mboxWithdrawLendingPool (mb : Mbox) (tag : BitVec 8)
  /-- MBOX_SET_TIME_MASTER (R394): Names the pod's time master. -/
  | mboxSetTimeMaster (mb : Mbox) (tag : BitVec 8)
  /-- MIGRATE_START (R389): Starts migration tracking and the page log. -/
  | migrateStart (mb : Mbox) (tag : BitVec 8)
  /-- MIGRATE_ROUND (R389): Copies dirty pages and blocks to a host buffer. -/
  | migrateRound (mb : Mbox) (tag : BitVec 8)
  /-- MIGRATE_SAVE (R389): Saves the remaining state of the partition. -/
  | migrateSave (mb : Mbox) (tag : BitVec 8)
  /-- MIGRATE_RESTORE (R389): Loads saved state on the target chip and resumes dispatch. -/
  | migrateRestore (mb : Mbox) (tag : BitVec 8)
  /-- MBOX_FIRMWARE_UPDATE (R397): Checks and writes a firmware image to flash. -/
  | mboxFirmwareUpdate (mb : Mbox) (tag : BitVec 8)
  /-- NOTE_HEAD_WRITE (R381): The host advances the notice head, letting held notices be written. -/
  | noteHeadWrite (mb : Mbox) (value : BitVec 64)
  /-- BIAS_TO_HOST (R383): A BIAS write with op 1 starts a flip of a page to host bias. -/
  | biasToHost (p : BitVec 3) (page : BitVec 23)
  /-- BIAS_TO_DEVICE (R383): A BIAS write with op 2 starts a flip of a page to device bias. -/
  | biasToDevice (p : BitVec 3) (page : BitVec 23)
  /-- HOST_CXL_MEM_ACCESS (R382): A host CXL.mem access to a device-bias page flips it first, then is answered. -/
  | hostCxlMemAccess (p : BitVec 3) (addr : Nat) (write : Option (List (BitVec 8)))
  /-- HOST_SNOOP (R373): A host snoop is answered as a miss. -/
  | hostSnoop (hpa : BitVec 64)
  /-- POOL_BACK_INVALIDATE (R385): A pool device's back-invalidate is handled at home as a write event. -/
  | poolBackInvalidate (line : Nat)
  /-- POOL_DEVICE_TIMEOUT (R385): A pool request unanswered for 1 ms faults the access. -/
  | poolDeviceTimeout (engine : Bool) (req : Nat)
  /-- GATE_AUDIT_READ (R364): A read of SHROUD.GATE_AUDIT returns and clears the counts. -/
  | gateAuditRead (k : BitVec 3)
  /-- SPN_STAT_READ (R299): A read of SPN.STAT clears the dropped count. -/
  | spnStatRead (p : BitVec 3)
  /-- PKS_STAT_READ (R392): A read of PKS.STAT clears the hot bit. -/
  | pksStatRead
  /-- REGISTER_WRITE (R375): A host write to a register with no behaviour of its own. -/
  | registerWrite (mb : Mbox) (off : BitVec 16) (value : HostWrite)
  /-- ZELLEN_FLIT_RECEIVE (R386): A flit is received, checked by CRC, delivered in order or refused for replay. -/
  | zellenFlitReceive (port : BitVec 3) (seq : BitVec 32) (body : BitVec 1984) (crc : BitVec 64)
  /-- ZELLEN_LINK_DOWN (R386): A link not retrained within 10 ms is down, traffic reroutes and a notice is written. -/
  | zellenLinkDown (port : ChipPort)
  /-- ZELLEN_LINK_UP (R386): A link finishes training and a notice is written. -/
  | zellenLinkUp (port : ChipPort)
  /-- TIME_SYNC_FLIT (R394): A sync flit disciplines the timebase toward the master's. -/
  | timeSyncFlit (chip : BitVec 12) (value : BitVec 64)
  /-- SPDM_SESSION_OPEN (R374): A requester opens an SPDM secure session on a DOE mailbox. -/
  | spdmSessionOpen (fn : BitVec 4) (mutualAuth : Bool)
  /-- IDE_KM_QUERY (R374): IDE key-management query on the physical function. -/
  | ideKmQuery (fn : BitVec 4) (stream : IdeStream)
  /-- IDE_KM_KEY_PROG (R374): Programs an IDE key set for a stream. -/
  | ideKmKeyProg (fn : BitVec 4) (stream : IdeStream) (tx : Bool) (keySet : Bool) (key : BitVec 256)
  /-- IDE_KM_KEY_SET_GO (R374): Switches a stream to a programmed key set. -/
  | ideKmKeySetGo (fn : BitVec 4) (stream : IdeStream) (tx : Bool) (keySet : Bool)
  /-- IDE_KM_KEY_SET_STOP (R374): Stops a stream's key set. -/
  | ideKmKeySetStop (fn : BitVec 4) (stream : IdeStream) (tx : Bool) (keySet : Bool)
  /-- SPDM_SESSION_END (R374): The end of a session zeroises the keys it programmed. -/
  | spdmSessionEnd (fn : BitVec 4)
  /-- SPDM_ATTESTATION_REQUEST (R391): A partition's function answers with a signed measurement report. -/
  | spdmAttestationRequest (fn : BitVec 4) (nonce : BitVec 256)
  /-- IDE_INTEGRITY_FAILURE (R374): A received flit fails its integrity check; the stream leaves the secure state and waiting accesses fail. -/
  | ideIntegrityFailure (stream : IdeStream)
  /-- LINK_RESET (R374): A link reset zeroises the IDE keys. -/
  | linkReset
  /-- POWER_ON (R395): Bring-up runs rails, boot ROM checks, training and self-test, ending with boot ready. -/
  | powerOn (hbmOk : Bool) (badCores reefCores : BitVec 32) (ports : BringUp)
  /-- PACKAGE_RESET (R396): A PF function-level reset or the reset line zeroises every partition and restarts bring-up. -/
  | packageReset
  /-- VF_FUNCTION_LEVEL_RESET (R396): A VF function-level reset resets its partition alone. -/
  | vfFunctionLevelReset (p : BitVec 3)
  /-- POWER_LIMIT_EXCEEDED (R393): Power above the limit for 1 ms lowers shroud clocks. -/
  | powerLimitExceeded (watts : BitVec 16) (clocks : ClockPlan)
  /-- THERMAL_THROTTLE (R393): Temperature at 105 C lowers clocks and writes a notice. -/
  | thermalThrottle (temp : BitVec 8) (clocks : ClockPlan)
  /-- THERMAL_STOP (R393): At 120 C the package stops, holds every shroud in reset and writes a notice. -/
  | thermalStop (temp : BitVec 8)
  /-- WI_COPY_DROP (R330): A core silently drops a WI copy at any time. -/
  | wiCopyDrop (core : BitVec 5) (line : Nat)
  /-- DEBUGGER_ATTACH (R349): A debugger attaches or detaches through the shroud controller and sets or clears trap.state.step for a context. -/
  | debuggerAttach (g : BitVec 7) (attach step : Bool)
  /-- LAUNCH_KILL (R295): The shroud controller kills a running launch, stopping every unit, dropping queued threads with code killed and tainting the verdict. -/
  | launchKill (launch : Nat)
  /-- ENGINE_RESET (R272): A store engine or the controller resets, after which logged commit records not wholly applied are re-applied and the scrubber runs. -/
  | engineReset (p : BitVec 3) (store : BitVec 6)
  /-- THROTTLING_END (R393): When power and temperature fall back within bounds, the controller raises shroud clocks again and throttled clears. -/
  | throttlingEnd (temp : BitVec 8) (watts : BitVec 16) (clocks : ClockPlan)
  /-- POWER_OFF (R395): The package's rails are removed or fall out of tolerance, losing all volatile state until the next power-on. -/
  | powerOff
  /-- MBOX_UNKNOWN_COMMAND (R377): A write to MBOX.CMD with an unknown code, or with a command for the other mailbox, fails with error 1 or 4. -/
  | mboxUnknownCommand (mb : Mbox) (tag : BitVec 8) (cmd : BitVec 8)
deriving DecidableEq, Repr

end Sys2Proof
end

