-- ==== Sys2Proof/Machine/Legal.lean ====
section
/-! DEFINITION. Which field values an instruction accepts: the decode checks of R12 that stand on the encoding alone. -/

namespace Sys2Proof

/-- A legal vector source code (R15): rows, latches, index rows, queue heads, zero, lane index, hold. -/
def srcCode (c : BitVec 6) : Bool := decide (c.toNat ≤ 57) || c == 63

/-- A legal source code of a slot without an operand latch (R29, R186). -/
def srcCodeNoHold (c : BitVec 6) : Bool := decide (c.toNat ≤ 57)

/-- A legal vector destination code (R16). -/
def dstCode (c : BitVec 6) : Bool := decide (c.toNat ≤ 39) || (decide (48 ≤ c.toNat) && decide (c.toNat ≤ 51))

/-- Whether a code names a row, and so takes a port (R15). -/
def portCode (c : BitVec 6) : Bool := dstCode c

/-- Floating, signed and natural vector formats (R104). -/
def VFmt.isFloat : VFmt → Bool
  | .fp32 | .bf16 | .fp16 => true
  | .i32 | .i16 | .i8 | .n32 | .n8 => false
def VFmt.isSigned : VFmt → Bool
  | .i32 | .i16 | .i8 => true
  | .fp32 | .bf16 | .fp16 | .n32 | .n8 => false

/-- Lane width in bits (R103). -/
def VFmt.width : VFmt → Nat
  | .fp32 | .i32 | .n32 => 32
  | .bf16 | .fp16 | .i16 => 16
  | .i8 | .n8 => 8

/-- Lane count n of a view (R103). -/
def VFmt.lanes (f : VFmt) : Nat := 2048 / f.width

/-- Targets that .inf may name among vector formats (R53). -/
def VFmt.infOk (f : VFmt) : Bool := f.isFloat

/-- Whether a VSHUF pattern is legal for n lanes (R122). -/
def shufOk (p n : Nat) : Bool :=
  if p < 8 then decide (2 ^ (p + 1) ≤ n)
  else if p < 40 then decide (2 ^ (p % 8) < n)
  else decide (p ≤ 43)

/-- Formats XCVT converts between (R151). -/
def XFmt.plain : XFmt → Bool
  | .fp32 | .bf16 | .fp16 | .e4m3 | .e5m2 | .e2m1 | .i32 | .i16 | .i8 | .n32 | .n16 | .n8 => true
  | .mxfp4 | .sx7 | .sx4 | .sx2 => false

/-- Transform targets that .inf may name (R53). -/
def XFmt.infOk : XFmt → Bool
  | .fp32 | .bf16 | .fp16 | .e5m2 => true
  | .e4m3 | .e2m1 | .mxfp4 | .sx7 | .sx4 | .sx2 | .i32 | .i16 | .i8 | .n32 | .n16 | .n8 => false

/-- Scaled formats of XQNT and XDEQ (R153, R154). -/
def XFmt.scaled : XFmt → Bool
  | .e4m3 | .mxfp4 | .sx7 | .sx4 | .sx2 => true
  | .fp32 | .bf16 | .fp16 | .e5m2 | .e2m1 | .i32 | .i16 | .i8 | .n32 | .n16 | .n8 => false

/-- Element formats of XPACK and XUNPK (R157). -/
def XFmt.packable : XFmt → Bool
  | .bf16 | .fp16 | .e4m3 | .e5m2 | .e2m1 | .i16 | .i8 | .n16 | .n8 => true
  | .fp32 | .mxfp4 | .sx7 | .sx4 | .sx2 | .i32 | .n32 => false

/-- Conditions of CMP and CMPI, and of FCMP (R26). -/
def Cond.intOk (c : Cond) : Bool := !(c == .un) && !(c == .ord)
def Cond.floatOk : Cond → Bool
  | .eq | .ne | .lt | .ge | .le | .gt | .un | .ord => true
  | .ltn | .gen | .len | .gtn | .bits | .nbits => false

/-- Control register numbers of R73. -/
def crOk (n : BitVec 12) : Bool :=
  [0x000, 0x001, 0x002, 0x003, 0x004, 0x005, 0x006, 0x007, 0x008, 0x010, 0x011, 0x012, 0x013, 0x020, 0x021, 0x022,
   0x030, 0x040, 0x041, 0x042, 0x050, 0x051, 0x052, 0x060, 0x061, 0x070].contains n.toNat

/-- A tile range c(t) to c(t + cnt), count − 1 = cnt, within one plane (R32). -/
def tileOk (t cnt : BitVec 4) : Bool := decide (t.toNat + cnt.toNat ≤ 11) && decide (t.toNat / 6 = (t.toNat + cnt.toNat) / 6)

/-- Services SYSC knows (R220). -/
def svcKnown (n : BitVec 10) : Bool := [0x000, 0x001, 0x010, 0x011, 0x020, 0x021].contains n.toNat

/-- fadd is FP32 only, and cas needs s(data+1) (R29). -/
def atomOk (f : AtomFn) (w64 : Bool) (data : BitVec 6) : Bool :=
  !(f == .fadd && w64) && !(f == .cas && data == 63)

/-- Any vector instruction with two source fields. -/
def v3Ok (d a b : BitVec 6) : Bool := dstCode d && srcCode a && srcCode b
def v2Ok (d a : BitVec 6) : Bool := dstCode d && srcCode a

/-- Formats with a sign: floating and I (R104, VABS and VNEG). -/
def VFmt.notN (f : VFmt) : Bool := f.isFloat || f.isSigned

/-- The field checks of R12: what decode refuses with ILLEGAL_OPERAND is exactly what is not legal here. -/
def legal : Instr → Bool
  | .loop _ len => len != 0
  | .cmp pr c _ _ | .cmpi pr c _ _ => pr != 0 && c.intOk
  | .fcmp pr c _ _ => pr != 0 && c.floatOk
  | .pand pr _ _ | .por pr _ _ | .pxor pr _ _ => pr != 0
  | .mfc _ cr | .mtc cr _ => crOk cr
  | .vadd _ _ _ d a b | .vsub _ _ _ d a b | .vmul _ _ _ d a b | .vfma _ _ _ d a b | .vfms _ _ _ d a b
  | .vmin _ _ _ d a b | .vmax _ _ _ d a b | .vabd _ _ _ d a b | .vand _ _ _ d a b | .vor _ _ _ d a b | .vxor _ _ _ d a b
  | .vcmpeq _ _ _ d a b | .vcmplt _ _ _ d a b | .vcmple _ _ _ d a b | .vsel _ _ _ d a b | .vperm _ _ _ d a b => v3Ok d a b
  | .vabs _ f _ d a | .vneg _ f _ d a => f.notN && v2Ok d a
  | .vshl _ f _ d a b | .vshr _ f _ d a b | .vadds _ f _ d a b | .vsubs _ f _ d a b => !f.isFloat && v3Ok d a b
  | .vsra _ f _ d a b => f.isSigned && v3Ok d a b
  | .vexp2 _ f _ d a | .vlog2 _ f _ d a | .vrcp _ f _ d a | .vrsq _ f _ d a => f.isFloat && v2Ok d a
  | .vcvt _ f _ d a from_ inf => v2Ok d a && from_ != f && (!inf || f.infOk)
  | .vbcast _ _ _ d a _ => v2Ok d a
  | .vbcs _ _ _ d _ => dstCode d
  | .vredadd _ _ _ d a | .vredmax _ _ _ d a | .vredmin _ _ _ d a | .vscan _ _ _ d a | .vmov _ _ _ d a => v2Ok d a
  | .vdot4 _ f _ d a b => (f == .i8 || f == .n8) && v3Ok d a b
  | .viota _ f _ d _ => !f.isFloat && dstCode d
  | .vmskp _ _ pr a => pr != 0 && srcCode a
  | .vmskc _ _ _ a | .vmovs _ _ _ a _ => srcCode a
  | .vshuf _ f _ d a p => v2Ok d a && shufOk p.toNat f.lanes
  | .vins _ _ _ d _ _ => dstCode d
  | .ldl d _ _ | .ldlp d _ _ | .ldg d _ _ _ | .ldgp d _ _ _ | .ldlx d _ _ => dstCode d
  | .stl d _ _ | .stlp d _ _ | .stg d _ _ _ | .stgp d _ _ _ => srcCodeNoHold d
  | .atom f w _ d _ | .atoml f w d _ => atomOk f w d
  | .xcvt tgt from_ _ inf d a => tgt.plain && from_.plain && tgt != from_ && (!inf || tgt.infOk) && v2Ok d a
  | .xqnt tgt _ sc _ d a => tgt.scaled && (tgt == .e4m3 || sc == 0) && v2Ok d a
  | .xdeq from_ _ sc d a => from_.scaled && (from_ == .e4m3 || sc == 0) && v2Ok d a
  | .xtrn w d a => w != 3 && v2Ok d a
  | .xexp _ d a | .xcmp _ d a => v2Ok d a
  | .xscl _ a => srcCode a
  | .xstat _ d => dstCode d
  | .xpack f d a | .xunpk f d a => f.packable && v2Ok d a
  | .mma t _ _ _ cnt _ _ | .mmap t _ _ cnt _ _ | .mzero t cnt | .mdrain t _ _ cnt _ _ _ | .mboomRmax t _ cnt
  | .mboomRsum t _ cnt | .mboomRscale t _ cnt | .mboomCscale t _ cnt | .mboomSexp t _ cnt | .mboomNorm t cnt
  | .mboomCzero t cnt | .mboomRstat t _ cnt => tileOk t cnt
  | .attn t _ _ _ => t == 0 || t == 6
  | .acarryExp t _ _ row => decide (t.toNat ≤ 11) && dstCode row
  | .acarryImp t _ _ row => decide (t.toNat ≤ 11) && srcCodeNoHold row
  | .mstat _ item => decide (item.toNat ≤ 9)
  | .signal _ _ sc => decide (1 ≤ sc.toNat) && decide (sc.toNat ≤ 6)
  | .bar sc _ => [1, 2, 3, 4, 7].contains sc.toNat
  | .take _ _ mx => mx != 0
  | .kvsync sc => decide (1 ≤ sc.toNat) && decide (sc.toNat ≤ 4)
  | .kvrsv _ pr => pr != 0
  | .syscUnknownService _ svc => !svcKnown svc
  | _ => true

end Sys2Proof
end

