-- ==== Sys2Proof/Machine/Tab.lean ====
section
/-! DEFINITION. Sparse tables (register files, memories) in canonical form, and little-endian byte access over them (R5). -/

namespace Sys2Proof.Machine

/-- What key `i` holds; an unlisted key holds `d`. -/
def Tab.get {α : Type} (d : α) : Tab α → Nat → α
  | [], _ => d
  | (k, v) :: t, i => if k = i then v else Tab.get d t i

/-- Every entry at key `i` removed. -/
def Tab.del {α : Type} (t : Tab α) (i : Nat) : Tab α := t.filter fun e => e.1 != i

/-- Key `i` takes `v`; the canonical form is kept (writing `d` removes the entry). -/
def Tab.set {α : Type} [DecidableEq α] (d : α) : Tab α → Nat → α → Tab α
  | [], i, v => if v = d then [] else [(i, v)]
  | (k, w) :: t, i, v =>
    if i < k then (if v = d then (k, w) :: Tab.del t i else (i, v) :: (k, w) :: t)
    else if i = k then (if v = d then Tab.del t i else (i, v) :: t)
    else (k, w) :: Tab.set d t i v

/-- Keys strictly rising from `lo`, and no entry equal to `d`. -/
def Tab.wfFrom {α : Type} [DecidableEq α] (d : α) : Nat → Tab α → Bool
  | _, [] => true
  | lo, (k, v) :: t => decide (lo ≤ k) && decide (v ≠ d) && Tab.wfFrom d (k + 1) t

/-- The canonical form of a table. -/
def Tab.wf {α : Type} [DecidableEq α] (d : α) (t : Tab α) : Bool := Tab.wfFrom d 0 t

/-- A memory reads zero where nothing is listed (log entry 2). -/
def Mem.read (m : Tab Byte) (a : Nat) : Byte := Tab.get 0 m a

/-- One byte of memory takes a value. -/
def Mem.write (m : Tab Byte) (a : Nat) (b : Byte) : Tab Byte := Tab.set 0 m a b

/-- The canonical form of a memory. -/
def Mem.wf (m : Tab Byte) : Bool := Tab.wf 0 m

/-- The `n` bytes from `a` as a little-endian number (R5). -/
def Mem.readN (m : Tab Byte) (a : Nat) : Nat → Nat
  | 0 => 0
  | n + 1 => (Mem.read m a).toNat + 256 * Mem.readN m (a + 1) n

/-- The `n` low bytes of `v` stored little-endian from `a` (R5). -/
def Mem.writeN (m : Tab Byte) (a : Nat) : Nat → Nat → Tab Byte
  | 0, _ => m
  | n + 1, v => Mem.writeN (Mem.write m a (BitVec.ofNat 8 v)) (a + 1) n (v / 256)

/-- The 64-bit little-endian word at `a`. -/
def Mem.read64 (m : Tab Byte) (a : Nat) : Word := BitVec.ofNat 64 (Mem.readN m a 8)

/-- The row of 256 bytes at `a`. -/
def Mem.readRow (m : Tab Byte) (a : Nat) : Row := BitVec.ofNat 2048 (Mem.readN m a 256)

/-- The row of 256 bytes at `a` takes a value. -/
def Mem.writeRow (m : Tab Byte) (a : Nat) (r : Row) : Tab Byte := Mem.writeN m a 256 r.toNat

/-- The bytes of `bs` stored from `a`. -/
def Mem.writeBytes (m : Tab Byte) (a : Nat) : List Byte → Tab Byte
  | [] => m
  | b :: bs => Mem.writeBytes (Mem.write m a b) (a + 1) bs

/-- The `n` bytes from `a`. -/
def Mem.readBytes (m : Tab Byte) (a : Nat) : Nat → List Byte
  | 0 => []
  | n + 1 => Mem.read m a :: Mem.readBytes m (a + 1) n

/-- A number's `n` low bytes, first the lowest. -/
def natBytes : Nat → Nat → List Byte
  | 0, _ => []
  | n + 1, v => BitVec.ofNat 8 v :: natBytes n (v / 256)

/-- The number a little-endian byte string stands for. -/
def bytesNat : List Byte → Nat
  | [] => 0
  | b :: bs => b.toNat + 256 * bytesNat bs

/-- Entries whose keys `p` admits. -/
def Tab.keep {α : Type} (p : Nat → α → Bool) (t : Tab α) : Tab α := t.filter fun e => p e.1 e.2

/-- Field `[lo+n-1:lo]` of a number (R5). -/
def field (v lo n : Nat) : Nat := (v >>> lo) % 2 ^ n

/-- SignExt of R17: the `n` low bits of `v` as two's complement. -/
def signExt (v n : Nat) : Int := let u := v % 2 ^ n; if u < 2 ^ (n - 1) then (u : Int) else (u : Int) - 2 ^ n

/-- A list with its `i`-th element replaced. -/
def setAt {α : Type} (l : List α) (i : Nat) (v : α) : List α := l.set i v

/-- An element put before the first that it may precede. -/
def insertBy {α : Type} (le : α → α → Bool) (x : α) : List α → List α
  | [] => [x]
  | y :: r => if le x y then x :: y :: r else y :: insertBy le x r

/-- A list in order, equal elements as they stood. -/
def sortBy {α : Type} (le : α → α → Bool) (l : List α) : List α := l.foldr (insertBy le) []

/-- ceil(a / b). -/
def ceilDiv (a b : Nat) : Nat := (a + b - 1) / b

end Sys2Proof.Machine
end

