-- ==== Sys2Proof/Machine/Num.lean ====
section
/-! DEFINITION. Numbers to the bit (02_numbers.md): exact values, RoundTA, Arith, SatTo, the floating formats, NaN handling, minimum and maximum, integer division. -/

namespace Sys2Proof.Machine

/-- fpstat flags (R51). -/
def fNx : Flags := 1
def fUf : Flags := 2
def fOf : Flags := 4
def fDz : Flags := 8
def fNv : Flags := 16
def fSat : Flags := 32

/-- The value of a floating code (R43): NaN, an infinity, or sign and exact magnitude num/den (den > 0). -/
inductive FV
  | nan
  | inf (neg : Bool)
  | fin (neg : Bool) (num den : Nat)
deriving DecidableEq, Repr

/-- Which codes are special (R43). -/
inductive Special
  | ieee | e4m3 | e2m1
deriving DecidableEq, Repr

/-- A floating format (R43): width, exponent and fraction bits, bias, special codes, canonical NaN. -/
structure FFmt where
  width : Nat
  ebits : Nat
  mbits : Nat
  bias : Nat
  special : Special
  nan : Nat
deriving DecidableEq, Repr

def FP64 : FFmt := ⟨64, 11, 52, 1023, .ieee, 0x7FF8000000000000⟩
def FP32 : FFmt := ⟨32, 8, 23, 127, .ieee, 0x7FC00000⟩
def BF16 : FFmt := ⟨16, 8, 7, 127, .ieee, 0x7FC0⟩
def FP16 : FFmt := ⟨16, 5, 10, 15, .ieee, 0x7E00⟩
def E4M3 : FFmt := ⟨8, 4, 3, 7, .e4m3, 0x7F⟩
def E5M2 : FFmt := ⟨8, 5, 2, 15, .ieee, 0x7E⟩
def E2M1 : FFmt := ⟨4, 2, 1, 1, .e2m1, 0x7⟩

/-- 2^k as a numerator and a denominator. -/
def pow2Num (k : Int) : Nat := if 0 ≤ k then 2 ^ k.toNat else 1
def pow2Den (k : Int) : Nat := if 0 ≤ k then 1 else 2 ^ (-k).toNat

/-- The exponent of the least normal of a format. -/
def FFmt.emin (f : FFmt) : Int := 1 - (f.bias : Int)

/-- A floating code's value (R43, R44: every NaN code is accepted). -/
def FFmt.decode (f : FFmt) (code : Nat) : FV :=
  let fr := code % 2 ^ f.mbits
  let ex := (code >>> f.mbits) % 2 ^ f.ebits
  let neg := (code >>> (f.width - 1)) % 2 == 1
  let top := 2 ^ f.ebits - 1
  if f.special = .ieee ∧ ex = top then (if fr = 0 then .inf neg else .nan)
  else if f.special = .e4m3 ∧ ex = top ∧ fr = 2 ^ f.mbits - 1 then .nan
  else
    let m := if ex = 0 then fr else 2 ^ f.mbits + fr
    let e : Int := (if ex = 0 then f.emin else (ex : Int) - f.bias) - f.mbits
    .fin neg (m * pow2Num e) (pow2Den e)

/-- floor(log2 (num/den)) for num, den > 0. -/
def floorLog2 (num den : Nat) : Int :=
  let d : Int := (num.log2 : Int) - den.log2
  if den * pow2Num d ≤ num * pow2Den d then d else d - 1

/-- |x| as a whole number of steps of 2^q, ties away from zero (the middle of RoundTA, R42). -/
def stepsTA (num den : Nat) (q : Int) : Nat :=
  (2 * num * pow2Den q + den * pow2Num q) / (2 * den * pow2Num q)

/-- RoundTA (R42) of a magnitude: the grid exponent and the count of grid steps, exponent not bounded above. -/
def roundTA (f : FFmt) (num den : Nat) : Int × Nat :=
  if num = 0 then (0, 0)
  else
    let q := max (floorLog2 num den) f.emin - f.mbits
    (q, stepsTA num den q)

/-- The largest finite magnitude of a format, as its code without sign (R43). -/
def FFmt.maxCode (f : FFmt) : Nat :=
  match f.special with
  | .ieee => (2 ^ f.ebits - 1) * 2 ^ f.mbits - 1
  | .e4m3 => 0x7E
  | .e2m1 => 7

/-- The largest finite magnitude, as steps of the top grid. -/
def FFmt.maxMag (f : FFmt) : Nat × Nat :=
  match f.decode f.maxCode with
  | .fin _ n d => (n, d)
  | _ => (0, 1)

/-- The sign bit of a code. -/
def FFmt.sign (f : FFmt) (neg : Bool) : Nat := if neg then 2 ^ (f.width - 1) else 0

/-- The code of the infinity of a sign (formats with infinities). -/
def FFmt.infCode (f : FFmt) (neg : Bool) : Nat := f.sign neg + (2 ^ f.ebits - 1) * 2 ^ f.mbits

/-- Whether a format has infinities (R43). -/
def FFmt.hasInf (f : FFmt) : Bool := f.special == .ieee

/-- The code of n steps of 2^q, a value on the format's grid at or below its maximum. -/
def FFmt.encode (f : FFmt) (neg : Bool) (q : Int) (n : Nat) : Nat :=
  if n = 0 then f.sign neg
  else
    let e := (n.log2 : Int) + q
    if e < f.emin then f.sign neg + n * pow2Num (q - (f.emin - f.mbits))
    else
      let fr := n * pow2Num (f.mbits - n.log2 : Int) / pow2Den (f.mbits - n.log2 : Int)
      f.sign neg + (e + f.bias).toNat * 2 ^ f.mbits + (fr - 2 ^ f.mbits)

/-- Whether n steps of 2^q differ from num/den. -/
def inexact (num den : Nat) (q : Int) (n : Nat) : Bool := n * pow2Num q * den != num * pow2Den q

/-- nx and uf of a rounded result that did not overflow (R42). -/
def roundFlags (f : FFmt) (num den : Nat) (q : Int) (n : Nat) : Flags :=
  if inexact num den q n then
    (if num * pow2Den f.emin < den * pow2Num f.emin then fNx ||| fUf else fNx)
  else 0

/-- Whether n steps of 2^q lie above the format's largest finite value. -/
def FFmt.excess (f : FFmt) (q : Int) (n : Nat) : Bool :=
  decide (f.maxMag.1 * pow2Den q < n * pow2Num q * f.maxMag.2)

/-- Arith(RoundTA(x, F), F) of R42, with its flags; `nv` when the exact step made the NaN. -/
def arith (f : FFmt) (nv : Bool) : FV → Nat × Flags
  | .nan => (f.nan, if nv then fNv else 0)
  | .inf s => (f.infCode s, 0)
  | .fin s num den =>
    let (q, n) := roundTA f num den
    if f.excess q n then (f.infCode s, fOf ||| fNx)
    else (f.encode s q n, roundFlags f num den q n)

/-- SatTo(RoundTA(x, F), F, inf_ok) of R42 and R52, with its flags. -/
def satTo (f : FFmt) (infOk : Bool) : FV → Nat × Flags
  | .nan => if f.special = .e2m1 then (f.nan, fNv) else (f.nan, 0)
  | .inf s => if infOk && f.hasInf then (f.infCode s, 0) else (f.sign s + f.maxCode, fSat ||| fNx)
  | .fin s num den =>
    let (q, n) := roundTA f num den
    if f.excess q n then
      (if infOk && f.hasInf then (f.infCode s, fOf ||| fNx) else (f.sign s + f.maxCode, fSat ||| fNx))
    else (f.encode s q n, roundFlags f num den q n)

/-- Exact sum of two values; the flag says that a NaN was made (R42, R44). -/
def FV.add : FV → FV → FV × Bool
  | .nan, _ => (.nan, false)
  | _, .nan => (.nan, false)
  | .inf a, .inf b => if a = b then (.inf a, false) else (.nan, true)
  | .inf a, _ => (.inf a, false)
  | _, .inf b => (.inf b, false)
  | .fin sa na da, .fin sb nb db =>
    let x := na * db
    let y := nb * da
    let d := da * db
    if sa = sb then (.fin sa (x + y) d, false)
    else if x = y then (.fin false 0 1, false)
    else if y < x then (.fin sa (x - y) d, false)
    else (.fin sb (y - x) d, false)

/-- A value with its sign turned. -/
def FV.neg : FV → FV
  | .nan => .nan
  | .inf s => .inf !s
  | .fin s n d => .fin (!s) n d

/-- A value's magnitude. -/
def FV.abs : FV → FV
  | .nan => .nan
  | .inf _ => .inf false
  | .fin _ n d => .fin false n d

/-- Exact difference. -/
def FV.sub (a b : FV) : FV × Bool := FV.add a b.neg

/-- Exact product; the flag says that a NaN was made. -/
def FV.mul : FV → FV → FV × Bool
  | .nan, _ => (.nan, false)
  | _, .nan => (.nan, false)
  | .inf a, .inf b => (.inf (a != b), false)
  | .inf a, .fin b n _ => if n = 0 then (.nan, true) else (.inf (a != b), false)
  | .fin a n _, .inf b => if n = 0 then (.nan, true) else (.inf (a != b), false)
  | .fin a na da, .fin b nb db => (.fin (a != b) (na * nb) (da * db), false)

/-- c + a*b as one exact value (R42 FMA32, R111). A NaN operand propagates without a flag (log entry 21). -/
def FV.fma (a b c : FV) : FV × Bool :=
  if a = .nan ∨ b = .nan ∨ c = .nan then (.nan, false)
  else
    match FV.mul a b with
    | (.nan, v) => (.nan, v)
    | (p, _) => FV.add p c

/-- Whether a value is zero. -/
def FV.isZero : FV → Bool
  | .fin _ n _ => n == 0
  | _ => false

/-- a < b for values that are not NaN (R44: zeros are equal). -/
def FV.lt : FV → FV → Bool
  | .nan, _ => false
  | _, .nan => false
  | .inf a, .inf b => a && !b
  | .inf a, _ => a
  | _, .inf b => !b
  | .fin sa na da, .fin sb nb db =>
    if na = 0 ∧ nb = 0 then false
    else if sa then (if sb then decide (nb * da < na * db) else true)
    else (if sb then false else decide (na * db < nb * da))

/-- a = b for values that are not NaN. -/
def FV.eqv (a b : FV) : Bool :=
  match a, b with
  | .nan, _ => false
  | _, .nan => false
  | a, b => !FV.lt a b && !FV.lt b a

/-- Whether a value's sign bit is set. -/
def FV.isNeg : FV → Bool
  | .nan => false
  | .inf s => s
  | .fin s _ _ => s

/-- Whether a value is NaN. -/
def FV.isNan : FV → Bool
  | .nan => true
  | _ => false

/-- Whether a value is finite. -/
def FV.isFin : FV → Bool
  | .fin _ _ _ => true
  | _ => false

/-- a is below b in the order of FMinNum and FMaxNum: −0 below +0 (R44). -/
def FV.below (a b : FV) : Bool :=
  FV.lt a b || (FV.eqv a b && a.isNeg && !b.isNeg)

/-- FMinNum on codes of a format (R44). -/
def fMinNum (f : FFmt) (a b : Nat) : Nat :=
  let x := f.decode a
  let y := f.decode b
  if x.isNan && y.isNan then f.nan else if x.isNan then b else if y.isNan then a
  else if FV.below y x then b else a

/-- FMaxNum on codes of a format (R44). -/
def fMaxNum (f : FFmt) (a b : Nat) : Nat :=
  let x := f.decode a
  let y := f.decode b
  if x.isNan && y.isNan then f.nan else if x.isNan then b else if y.isNan then a
  else if FV.below x y then b else a

/-- The five arithmetic forms on codes of one format (R111). -/
def fAdd (f : FFmt) (a b : Nat) : Nat × Flags :=
  let r := FV.add (f.decode a) (f.decode b); arith f r.2 r.1
def fSub (f : FFmt) (a b : Nat) : Nat × Flags :=
  let r := FV.sub (f.decode a) (f.decode b); arith f r.2 r.1
def fMul (f : FFmt) (a b : Nat) : Nat × Flags :=
  let r := FV.mul (f.decode a) (f.decode b); arith f r.2 r.1
def fFma (f : FFmt) (a b c : Nat) : Nat × Flags :=
  let r := FV.fma (f.decode a) (f.decode b) (f.decode c); arith f r.2 r.1
def fFms (f : FFmt) (a b c : Nat) : Nat × Flags :=
  let r := FV.fma (f.decode a).neg (f.decode b) (f.decode c); arith f r.2 r.1
def fAbd (f : FFmt) (a b : Nat) : Nat × Flags :=
  let r := FV.sub (f.decode a) (f.decode b); arith f r.2 r.1.abs

/-- VABS and VNEG of a code: only the sign changes, a NaN gives the canonical NaN (R111). -/
def fAbs (f : FFmt) (a : Nat) : Nat :=
  if (f.decode a).isNan then f.nan else a % 2 ^ (f.width - 1)
def fNeg (f : FFmt) (a : Nat) : Nat :=
  if (f.decode a).isNan then f.nan else (a + 2 ^ (f.width - 1)) % 2 ^ f.width

/-- A whole number as an exact value. -/
def FV.ofInt (i : Int) : FV := .fin (decide (i < 0)) i.natAbs 1

/-- Signed division and remainder of R47 at width w, on two's-complement codes. -/
def divS (w a b : Nat) : Nat :=
  let x := signExt a w
  let y := signExt b w
  if y = 0 then 2 ^ (w - 1) else ((x.tdiv y) % 2 ^ w).toNat
def remS (w a b : Nat) : Nat :=
  let x := signExt a w
  let y := signExt b w
  if y = 0 then a else ((x.tmod y) % 2 ^ w).toNat
/-- Natural division and remainder of R47. -/
def divN (w a b : Nat) : Nat := if b = 0 then 2 ^ w - 1 else a / b
def remN (a b : Nat) : Nat := if b = 0 then a else a % b

/-- Two's-complement code of an integer at width w (R46: wraps). -/
def wrap (w : Nat) (i : Int) : Nat := (i % (2 ^ w : Nat)).toNat

/-- An integer clamped to [lo, hi]. -/
def clampI (lo hi i : Int) : Int := if i < lo then lo else if hi < i then hi else i

end Sys2Proof.Machine
end

