-- ==== Sys2Proof/Machine/Conv.lean ====
section
/-! DEFINITION. Lanes of a row, conversions between formats, quantisation and its inverse, statistics, block codec (R48 to R59, R103, R146 to R157). -/

namespace Sys2Proof
open Sys2Proof.Machine

/-- A vector format as a transform format. -/
def VFmt.toX : VFmt → XFmt
  | .fp32 => .fp32 | .bf16 => .bf16 | .fp16 => .fp16 | .i32 => .i32 | .i16 => .i16 | .i8 => .i8 | .n32 => .n32 | .n8 => .n8

/-- The floating format of a transform format, if it is one (R43). -/
def XFmt.float : XFmt → Option FFmt
  | .fp32 => some FP32 | .bf16 => some BF16 | .fp16 => some FP16 | .e4m3 => some E4M3 | .e5m2 => some E5M2 | .e2m1 => some E2M1
  | .mxfp4 | .sx7 | .sx4 | .sx2 | .i32 | .i16 | .i8 | .n32 | .n16 | .n8 => none

/-- The floating format of a vector format; FP32 for the others, which never ask. -/
def VFmt.float (f : VFmt) : FFmt := match f with | .bf16 => BF16 | .fp16 => FP16 | _ => FP32

/-- Whether an integer format is signed. -/
def XFmt.signed : XFmt → Bool
  | .i32 | .i16 | .i8 => true
  | _ => false

/-- Element width in bits of the formats without a scale (R150). -/
def XFmt.width : XFmt → Nat
  | .fp32 | .i32 | .n32 => 32
  | .bf16 | .fp16 | .i16 | .n16 => 16
  | .e2m1 | .mxfp4 => 4
  | _ => 8

/-- Magnitude bits M of an SX format, and its block's bytes (R48). -/
def XFmt.sxM : XFmt → Nat
  | .sx7 => 7 | .sx4 => 4 | _ => 2
def XFmt.sxBytes (f : XFmt) : Nat := 2 + 2 * (f.sxM + 1)

end Sys2Proof

namespace Sys2Proof.Machine

/-- The lanes of w bits of a row, lane 0 first (R103). -/
def lanes (r : Row) (w : Nat) : List Nat := (List.range (2048 / w)).map fun i => r.toNat / 2 ^ (w * i) % 2 ^ w

/-- Elements of w bits packed from bit 0 upward. -/
def packNat (w : Nat) : List Nat → Nat
  | [] => 0
  | x :: xs => x % 2 ^ w + 2 ^ w * packNat w xs

/-- A row of packed elements; bytes past the packing are zero. -/
def packRow (w : Nat) (xs : List Nat) : Row := BitVec.ofNat 2048 (packNat w xs)

/-- The bytes of a row, byte 0 first, and the row of bytes. -/
def rowBytes (r : Row) : List Byte := natBytes 256 r.toNat
def bytesRow (bs : List Byte) : Row := BitVec.ofNat 2048 (bytesNat bs)

/-- The integer an integer code stands for. -/
def intOf (f : XFmt) (c : Nat) : Int := if f.signed then signExt c f.width else ((c % 2 ^ f.width : Nat) : Int)

/-- Bounds of an integer format. -/
def intMin (f : XFmt) : Int := if f.signed then -(2 ^ (f.width - 1)) else 0
def intMax (f : XFmt) : Int := if f.signed then 2 ^ (f.width - 1) - 1 else 2 ^ f.width - 1

/-- An exact value rounded to a whole number, ties away from zero. -/
def roundInt (neg : Bool) (num den : Nat) : Int :=
  let n := (stepsTA num den 0 : Int)
  if neg then -n else n

/-- Floating to integer in [lo, hi] at width w (R54; the bound is judged on the rounded value). -/
def toInt (lo hi : Int) (w : Nat) : FV → Nat × Flags
  | .nan => (0, fNv)
  | .inf s => (wrap w (if s then lo else hi), fSat ||| fNx)
  | .fin s n d =>
    let i := roundInt s n d
    if i < lo then (wrap w lo, fSat ||| fNx)
    else if hi < i then (wrap w hi, fSat ||| fNx)
    else (wrap w i, if n % d = 0 then 0 else fNx)

/-- One element converted between plain formats (R52, R54, R119). -/
def cvtElem (src dst : XFmt) (inf : Bool) (c : Nat) : Nat × Flags :=
  match src.float, dst.float with
  | some a, some b => satTo b inf (a.decode c)
  | some a, none => toInt (intMin dst) (intMax dst) dst.width (a.decode c)
  | none, some b => satTo b inf (FV.ofInt (intOf src c))
  | none, none =>
    let i := intOf src c
    let j := clampI (intMin dst) (intMax dst) i
    (wrap dst.width j, if i = j then 0 else fSat)

/-- The exact value of an element of a plain format. -/
def elemVal (f : XFmt) (c : Nat) : FV :=
  match f.float with
  | some a => a.decode c
  | none => FV.ofInt (intOf f c)

/-- Flags of several elements OR-ed together. -/
def orFlags (l : List (Nat × Flags)) : Flags := l.foldl (fun f e => f ||| e.2) 0

/-- A row converted element by element, k = min of the lane counts; destination elements from k upward are zero (R119, R151). -/
def cvtRow (src dst : XFmt) (inf : Bool) (a : Row) : Row × Flags :=
  let k := min (2048 / src.width) (2048 / dst.width)
  let r := ((lanes a src.width).take k).map (cvtElem src dst inf)
  (packRow dst.width (r.map (·.1)), orFlags r)

/-- MaxFP32 as an exact magnitude. -/
def maxFP32 : Nat × Nat := FP32.maxMag

/-- An element with an infinity counted as MaxFP32 of its sign (R55, R56, R57). -/
def FV.bounded : FV → FV
  | .inf s => .fin s maxFP32.1 maxFP32.2
  | v => v

/-- The largest magnitude of a granule (R55). -/
def amax (g : List FV) : FV :=
  g.foldl (fun m x => if FV.lt m x.bounded.abs then x.bounded.abs else m) (.fin false 0 1)

def anyNan (g : List FV) : Bool := g.any FV.isNan

/-- An exact quotient of finite values, the divisor not zero. -/
def FV.div : FV → FV → FV
  | .fin a n d, .fin b m e => .fin (a != b) (n * e) (d * m)
  | .inf a, .fin b _ _ => .inf (a != b)
  | _, _ => .nan

/-- ScaleE4M3 (R55) as an FP32 code. -/
def scaleE4M3 (g : List FV) : Nat :=
  if anyNan g then FP32.nan else (satTo FP32 false (FV.div (amax g) (.fin false 448 1))).1

/-- QuantE4M3 (R55). -/
def quantE4M3 (x scale : FV) : Nat × Flags :=
  match x, scale with
  | .nan, _ => (0x7F, 0)
  | _, .nan => (0x7F, 0)
  | x, .inf ss => if x.isFin then (E4M3.sign (x.isNeg != ss), 0) else (0x7F, fNv)
  | x, .fin ss m e => if m = 0 then (E4M3.sign x.isNeg, 0) else satTo E4M3 false (FV.div x (.fin ss m e))

/-- ScaleMX (R56). -/
def scaleMX (g : List FV) : Nat :=
  if anyNan g then 0xFF
  else
    match amax g with
    | .fin _ n d => if n = 0 then 0 else (clampI (-127) 127 (floorLog2 n d - 2) + 127).toNat
    | _ => 0

/-- x / 2^k exactly. -/
def FV.shr (x : FV) (k : Int) : FV :=
  match x with
  | .fin s n d => .fin s (n * pow2Den k) (d * pow2Num k)
  | v => v

/-- QuantMX (R56). -/
def quantMX (x : FV) (e : Nat) : Nat × Flags :=
  if e = 0xFF then (0, 0) else satTo E2M1 false (x.shr ((e : Int) - 127))

/-- The exact value of an MXFP4 element under its E8M0 scale (R50). -/
def mxVal (c e : Nat) : FV := if e = 0xFF then .nan else (E2M1.decode c).shr (127 - (e : Int))

/-- SXValue (R49). -/
def sxVal (E delta : Nat) (neg : Bool) (mag M : Nat) : FV :=
  if E = 255 then .nan else (FV.fin neg mag 1).shr (127 + (delta : Int) + ((M : Int) - 1) - E)

/-- The sixteen values of an SX block held in a number, byte 0 lowest (R48, R49). -/
def sxDecode (M blk : Nat) : List FV :=
  (List.range 16).map fun i =>
    let el := field blk (16 + (M + 1) * i) (M + 1)
    sxVal (field blk 0 8) (field blk (8 + 2 * (i / 4)) 2) (el / 2 ^ M == 1) (el % 2 ^ M) M

/-- |y| / 2^k rounded to a whole number. -/
def stepsOf (y : FV) (k : Int) : Nat :=
  match y with
  | .fin _ n d => stepsTA n d k
  | _ => 0

/-- QuantSX (R57): the block as a number, its flags. -/
def quantSX (M : Nat) (x : List FV) : Nat × Flags :=
  if anyNan x then (255, 0)
  else
    let infs : Flags := if x.any (fun v => !v.isFin) then fSat ||| fNx else 0
    let y := x.map FV.bounded
    let signs := packNat (M + 1) (y.map fun v => if v.isNeg then 2 ^ M else 0)
    match amax y with
    | .fin _ n d =>
      if n = 0 then (0xFF00 + 65536 * signs, infs)
      else
        let e := floorLog2 n d
        let e := if stepsTA n d (e - (M - 1)) = 2 ^ M then e + 1 else e
        let e := clampI (-127) 127 e
        let top := 2 ^ M - 1
        let delta := fun g =>
          let gm := amax ((y.drop (4 * g)).take 4)
          match [3, 2, 1, 0].find? fun dl => decide (stepsOf gm (e - (dl : Nat) - ((M : Int) - 1)) ≤ top) with
          | some dl => dl
          | none => 0
        let ds := [delta 0, delta 1, delta 2, delta 3]
        let qs := (List.range 16).map fun i => stepsOf (y.getD i .nan) (e - ((ds.getD (i / 4) 0 : Nat) : Int) - ((M : Int) - 1))
        let sat : Flags := if qs.any (fun q => decide (top < q)) then fSat ||| fNx else 0
        let els := (List.range 16).map fun i => (if (y.getD i .nan).isNeg then 2 ^ M else 0) + min (qs.getD i 0) top
        ((e + 127).toNat + 256 * packNat 2 ds + 65536 * packNat (M + 1) els, infs ||| sat)
    | _ => (255, 0)

/-- Lists cut into chunks of n. -/
def chunks {α : Type} (n : Nat) (fuel : Nat) (l : List α) : List (List α) :=
  match fuel with
  | 0 => []
  | fuel + 1 => if l.isEmpty then [] else l.take n :: chunks n fuel (l.drop n)

/-- Whether two values differ: decoded against source (R153). -/
def differs (x q : FV) : Bool :=
  match x, q with
  | _, .nan => false
  | .fin _ _ _, .fin _ _ _ => !FV.eqv x q
  | _, _ => true

/-- XQNT of a row (R153): the packed row, its flags, the exact values of the result elements (R59). `sc` holds the scale
lanes of an E4M3 target. -/
def xqntRow (tgt : XFmt) (bf : Bool) (sc a : Row) : Row × Flags × List FV :=
  let sf := if bf then BF16 else FP32
  let n := if bf then 128 else 64
  let xs := (lanes a sf.width).map sf.decode
  let out : Row × Flags × List FV :=
    match tgt with
    | .e4m3 =>
      let ss := (lanes sc 32).map FP32.decode
      let r := (List.range n).map fun i => quantE4M3 (xs.getD i .nan) (ss.getD (64 * i / n) .nan)
      (packRow 8 (r.map (·.1)), orFlags r,
        (List.range n).map fun i => (FV.mul (E4M3.decode (r.getD i (0, 0)).1) (ss.getD (64 * i / n) .nan)).1)
    | .mxfp4 =>
      let bl := chunks 32 4 xs
      let es := bl.map scaleMX
      let r := (bl.zip es).map fun b => b.1.map fun x => quantMX x b.2
      let codes := (r.flatten).map (·.1)
      (BitVec.ofNat 2048 (packNat 4 codes + 2 ^ (4 * n) * packNat 8 es), orFlags r.flatten,
        ((r.zip es).map fun b => b.1.map fun q => mxVal q.1 b.2).flatten)
    | f =>
      let bl := (chunks 16 8 xs).map (quantSX f.sxM)
      (packRow (8 * f.sxBytes) (bl.map (·.1)), orFlags bl, (bl.map fun b => sxDecode f.sxM b.1).flatten)
  let nx : Flags := if (xs.zip out.2.2).any (fun e => differs e.1 e.2) then fNx else 0
  (out.1, out.2.1 ||| nx, out.2.2)

/-- One product of R58 delivered in FP32 or BF16. -/
def deqElem (t : FFmt) (el scale : FV) : Nat × Flags :=
  match el, scale with
  | .nan, _ => (t.nan, 0)
  | _, .nan => (t.nan, 0)
  | el, .inf s => if el.isZero then (t.nan, fNv) else (t.sign (el.isNeg != s) + t.maxCode, fSat ||| fNx)
  | el, sc => satTo t false (FV.mul el sc).1

/-- XDEQ of a row (R154). -/
def xdeqRow (from_ : XFmt) (bf : Bool) (sc a : Row) : Row × Flags :=
  let t := if bf then BF16 else FP32
  let n := if bf then 128 else 64
  let one : FV := .fin false 1 1
  let r : List (Nat × Flags) :=
    match from_ with
    | .e4m3 =>
      let ss := (lanes sc 32).map FP32.decode
      let cs := lanes a 8
      (List.range n).map fun i => deqElem t (E4M3.decode (cs.getD i 0)) (ss.getD (64 * i / n) .nan)
    | .mxfp4 =>
      let cs := lanes a 4
      let es := lanes a 8
      (List.range n).map fun i => deqElem t (mxVal (cs.getD i 0) (es.getD (n / 2 + i / 32) 0)) one
    | f =>
      let bl := (List.range (n / 16)).map fun b => sxDecode f.sxM (field a.toNat (8 * f.sxBytes * b) (8 * f.sxBytes))
      bl.flatten.map fun v => deqElem t v one
  (packRow t.width (r.map (·.1)), orFlags r)

/-- One element's addition to a statistics pair (R59). -/
def statAdd (p : Word × Word) (x q : FV) : Word × Word :=
  if x.isFin && !q.isNan then
    let d := (FV.sub x q).1
    let s := (FV.add (FP64.decode p.1.toNat) (FV.mul d d).1).1
    (BitVec.ofNat 64 (satTo FP64 false s).1, p.2 + 1)
  else p

/-- The statistics pair after the elements of a row, ascending (R59). -/
def statRow (p : Word × Word) (xs qs : List FV) : Word × Word := (xs.zip qs).foldl (fun p e => statAdd p e.1 e.2) p

/-- Source values and exact result values of an XCVT (R151). -/
def xcvtPairs (src dst : XFmt) (inf : Bool) (a : Row) : List FV × List FV :=
  let k := min (2048 / src.width) (2048 / dst.width)
  let cs := (lanes a src.width).take k
  (cs.map (elemVal src), cs.map fun c => elemVal dst (cvtElem src dst inf c).1)

/-- The natural body of a block under R146: kind and bytes after the header. -/
def codecBody (bs : List Byte) : Nat × List Byte :=
  let nz := bs.filter (· != 0)
  if nz.isEmpty then (1, [])
  else if 16 + nz.length ≤ 128 then
    (2, natBytes 16 (packNat 1 (bs.map fun b => if b = 0 then 0 else 1)) ++ nz)
  else (0, bs)

/-- A 128-byte block encoded at ceiling code ceil (R146). -/
def codecBlock (ceil : Nat) (bs : List Byte) : List Byte :=
  let (kind, body) := codecBody bs
  let enc := BitVec.ofNat 8 (64 * ceil + kind) :: body
  enc ++ List.replicate (128 / 2 ^ ceil - enc.length) 0

/-- Bytes padded with zeros to a multiple of n. -/
def padTo (n : Nat) (bs : List Byte) : List Byte := bs ++ List.replicate ((n - bs.length % n) % n) 0

/-- A row encoded as two blocks, padded to a multiple of 8 (R146). -/
def codecRow (ceil : Nat) (bs : List Byte) : List Byte := padTo 8 (codecBlock ceil (bs.take 128) ++ codecBlock ceil (bs.drop 128))

/-- Whether a block header is valid, and its ceiling code (R146, R147). -/
def headerOk (h : Byte) : Bool := field h.toNat 0 2 != 3 && field h.toNat 2 4 == 0
def headerCeil (h : Byte) : Nat := field h.toNat 6 2

/-- The encoded length of a block from its header and the 16 bytes after it (R146). -/
def blockLen (h : Byte) (mask : List Byte) : Nat :=
  let nat := match field h.toNat 0 2 with
    | 0 => 129
    | 1 => 1
    | _ => 17 + ((List.range 128).filter fun j => (bytesNat mask).testBit j).length
  max nat (128 / 2 ^ headerCeil h)

/-- The bytes a mask flags, laid out at their places. -/
def expand (mask : Nat) : Nat → Nat → List Byte → List Byte
  | 0, _, _ => []
  | n + 1, j, bs => if mask.testBit j then bs.headD 0 :: expand mask n (j + 1) bs.tail else 0 :: expand mask n (j + 1) bs

/-- The 128 bytes of an encoded block (R146). -/
def blockDecode (bs : List Byte) : List Byte :=
  match field (bs.headD 0).toNat 0 2 with
  | 0 => (bs.drop 1).take 128 ++ List.replicate (128 - (bs.drop 1).length) 0
  | 1 => List.replicate 128 0
  | _ => expand (bytesNat ((bs.drop 1).take 16)) 128 0 (bs.drop 17)

/-- XCMP of bytes [127:0] of a row (R148). -/
def xcmpRow (ceil : Nat) (a : Row) : Row :=
  let e := padTo 8 (codecBlock ceil ((rowBytes a).take 128))
  bytesRow (e ++ List.replicate (255 - e.length) 0 ++ [BitVec.ofNat 8 e.length])

/-- XTRN (R156). -/
def xtrnRow (w : Nat) (a : Row) : Row :=
  let m := 2048 / w / 8
  let l := lanes a w
  packRow w ((List.range (8 * m)).map fun k => l.getD (m * (k % 8) + k / 8) 0)

/-- XPACK and XUNPK (R157). -/
def xpackRow (f : XFmt) (a : Row) : Row := packRow f.width (lanes a 32)
def xunpkRow (f : XFmt) (a : Row) : Row :=
  packRow 32 (((lanes a f.width).take 64).map fun c => if f.signed then wrap 32 (signExt c f.width) else c)

end Sys2Proof.Machine
end

