-- ==== Sys2Proof/Config.lean ====
section
/-! DEFINITION. What the manual leaves to a part or does not fix: opaque constants without a body, so that no statement can rest on a value (log entries 10, 11, 17, 18). -/

namespace Sys2Proof

/-- Free 64-bit values: the n-th value the manual leaves undefined (log entry 11). -/
opaque Config.freeWord : Nat → BitVec 64
/-- Free rows: the n-th row the manual leaves undefined (log entry 11). -/
opaque Config.freeRow : Nat → BitVec 2048
/-- Free tile columns: the n-th tile content the manual leaves undefined, by cell (R181, log entry 11). -/
opaque Config.freeCell : Nat → Nat → BitVec 32
/-- Free verdicts, for a check whose outcome the manual does not fix (log entries 11 and 16). -/
opaque Config.freeBool : Nat → Bool
/-- What a register field takes when a handler's record gives it a value beyond its range (R17, R76, R348; log entry 86). -/
opaque Config.stray : BitVec 64 → BitVec 64
/-- The first launch id after package reset is not fixed (R211): ids are this plus 1, 2, … (log entry 10). -/
opaque Config.launchIdBase : Nat
/-- chip.id (R73), per package. -/
opaque Config.chipId : BitVec 12
/-- The controller firmware version answered by SYSC 0x000 (R220), by image version. -/
opaque Config.firmwareVersion : BitVec 64 → BitVec 64
/-- The hash that chooses a bucket of the overflow summary from a line address (R330 leaves it open). -/
opaque Config.summaryHash : Nat → BitVec 12
/-- The set of its slice's L2 that a line lies in (R4 gives the size, R342 leaves the mapping to a part; log entry 71). -/
opaque Config.l2Set : Nat → BitVec 14
/-- The pool decoders as the host's system software has set them once the pool links are up: base, size, port choice 0, 1 or 2 for both
(R385, which names no register for them; log entry 69). -/
opaque Config.poolDecoder : Nat → Option (BitVec 64 × BitVec 64 × BitVec 64)
/-- CRC-64 over bytes 0-247 of a flit (R386 names no polynomial; log entry 18). -/
opaque Config.crc64 : BitVec 1984 → BitVec 64
/-- ML-DSA-65 verification of a firmware image: key digest good, signature good (R390, log entry 17). -/
opaque Config.imageSignatureGood : List (BitVec 8) → Bool
/-- The version field of a firmware image; R390 gives no image layout (log entry 17). -/
opaque Config.imageVersion : List (BitVec 8) → BitVec 64
/-- The fused minimum image version (R390). -/
opaque Config.fusedMinimum : BitVec 64
/-- The image the flash holds when the package leaves the factory (R390 says nothing of its bytes). -/
opaque Config.factoryImage : List (BitVec 8)
/-- Digests extended into measurement slots 0-3: boot ROM, firmware configuration, fused security version (R391). -/
opaque Config.romDigest : Nat → BitVec 512
/-- The digest of a partition's shape, first shroud and log2 of its size, that slot 4 takes at its open (R391 gives no encoding). -/
opaque Config.shapeDigest : Nat → Nat → BitVec 512
/-- Chips of the pod along X, Y and Z (R386, R387), per installation. -/
opaque Config.torusSize : Nat → Nat
/-- The ML-DSA-65 signature of an attestation report under the n-th key of a partition (R391, log entry 17). -/
opaque Config.attestationSignature : Nat → Nat → BitVec 512 → List (BitVec 8)

end Sys2Proof
end

