-- ==== Sys2Proof/Machine/State.lean ====
section
/-! DEFINITION. The state of an LX8 package as plain data: contexts, cores, shrouds, partitions, launches, engine threads, host side; State.reset. -/

namespace Sys2Proof.Machine

/-- Why the machine stops: for no reason. A program's errors are traps (R343) or engine faults (R196), a frame that is not there is met
by the accesses to it (R131, R363, R385), and what the manual leaves open is free. -/
inductive Fault
deriving DecidableEq, Repr

/-- Why an instruction has no meaning in the model. -/
inductive Refusal
  /-- Raised by an arm of exec whose instruction is not modelled yet. Safe: the model stops. -/
  | notModelled (mnemonic : String)
deriving DecidableEq, Repr

/-- Trap codes (R343). -/
inductive TrapCode
  | illegalOp | illegalOperand | illegalBundle | latchStale | align | page | access | window | kvFault | segOverflow
  | ue | bkpt | step | soft
deriving DecidableEq, Repr

/-- A trap to be taken (R343, R345): the header fields that depend on its cause. `epc` is the resume address. -/
structure Trap where
  code : TrapCode
  reason : Nat := 0
  slot : Nat := 255
  /-- The manual names no slot: a free one of the eight (log entry 70). -/
  anySlot : Bool := false
  code8 : Nat := 0
  addr : Word := 0
  pc : Word := 0
  epc : Word := 0
  isWrite : Bool := false
  isAtomic : Bool := false
  isFetch : Bool := false
  blocked : Bool := false
  /-- A gate refused the access (R363, R364). -/
  gate : Bool := false
  /-- A KVSYNC tells of a dropped entry, which its resume does not tell again (R278). -/
  told : Bool := false
deriving DecidableEq, Repr

/-- An active hardware loop (R80): start and end addresses, remaining iterations. -/
structure Loop where
  start : Word
  stop : Word
  left : Word
deriving DecidableEq, Repr

/-- A fixed-latency result in flight (R14, R346). `kind` is R346's code; kind 9 keeps its scale row in `row2` and its
formats in `value` (log entry 9). `old` marks results issued before the last fence (R227). -/
structure Flight where
  kind : Nat
  remain : Nat
  dest : Nat
  slot : Nat
  flags : Flags := 0
  value : Word := 0
  row : Row := 0
  row2 : Row := 0
  slipped : Bool := false
  old : Bool := false
deriving DecidableEq, Repr

/-- A mark on a register whose load landed without its value (R136, R366). -/
inductive Mark
  | poisoned (line : Nat)
  | aborted (va : Word)
deriving DecidableEq, Repr

/-- What a checkpoint holds of a context (R353): scalars, branch targets, predicates, index bases, scale registers,
latches l0–l7 and VA.a to XF.a by row number of R347, loops (outer first), and the control registers of R73. -/
structure Regs where
  s : Tab Word
  bt : Tab Word
  pred : BitVec 16
  x : Tab (BitVec 8)
  sc : Tab Row
  latch : Tab (Option Row)
  loops : List Loop
  pc : Word
  /-- wu.x to wu.param by control register number 0x001–0x008. -/
  wu : Tab Word
  trapVec : Word
  trapEpc : Word
  trapRec : Word
  inHandler : Bool
  inSeg : Bool
  step : Bool
  blocked : Bool
  fpstat : Flags
  sse : Word
  cnt : Word
  segBase : Word
  segCount : Word
  segText : Word
deriving DecidableEq, Repr

/-- Registers as at a work unit's start, and before any (R304; log entry 3). -/
def Regs.reset : Regs :=
  { s := [], bt := [], pred := 1, x := [], sc := [], latch := [], loops := [], pc := 0, wu := [], trapVec := 0
    trapEpc := 0, trapRec := 0, inHandler := false, inSeg := false, step := false, blocked := false, fpstat := 0
    sse := 0, cnt := 0, segBase := 0, segCount := 0, segText := 0 }

/-- One entry of a segment's store buffer, in issue order (R353); the policy is the one in force on its page. -/
structure SegStore where
  pa : Nat
  pol : Pol
  data : List Byte
deriving DecidableEq, Repr

/-- One entry of a segment's load log (R353): the value a load landed with, or the mark that stood in its place (R136). -/
structure LoadLog where
  data : List Byte
  mark : Option Mark
deriving DecidableEq, Repr

/-- What a rewind gives back beside the checkpoint of R353, so that a rerun computes what the first run did (R68; log entry 88): the
register marks, the tile descriptors, the cell pattern, astat, the drain statistics and the last lengths. -/
structure Aside where
  marks : Tab (Option Mark) := []
  td : Tab (BitVec 512) := []
  cpat : BitVec 32 := 0
  astat : BitVec 7 := 0
  drainSum : Word := 0
  drainCnt : Word := 0
  lastLen : Word := 0
  lastPages : Word := 0
deriving DecidableEq, Repr

/-- One entry of a segment's undo log (R353): a VRS row, or a 256-byte scratchpad row, with its old content. `pending`: an
array entry will write the row and gives the old content as it starts. -/
structure Undo where
  isRow : Bool
  index : Nat
  old : Row
  pending : Bool := false
deriving DecidableEq, Repr

/-- The exact residue pair of a tile row (R171): C as signed numerator, B as numerator, both over 2^300, the K steps since
the zeroing, and whether a term was not finite (log entry 16). -/
abbrev Resid := Int × Nat × Nat × Bool

/-- The old content of a tile, its type and residue, or of a plane's carry and status (tile log, R353). -/
structure TileLog where
  isCarry : Bool
  index : Nat
  cells : Tab (BitVec 32)
  flags : List Bool
  resid : Tab Resid
deriving DecidableEq, Repr

/-- A command for an engine, with what it captured at issue (R193): the opcode of R33, issuing context, operands, its
record's bytes, the row of a QSEND, its launch and the tag of its writes (R340), its completion object and scope. -/
structure EngCmd where
  op : Nat
  g : Nat
  /-- The work unit that issued it, by launch and index. -/
  by_ : Option (Nat × Nat) := none
  /-- Its place in the order of forks: the number its thread takes. -/
  seq : Nat := 0
  a : Word := 0
  b : Word := 0
  imm : Nat := 0
  record : List Byte := []
  row : Row := 0
  launch : Option Nat := none
  tag : Nat := 0
  comp : Option Word := none
  scope : Nat := 0
  /-- Units a TRIG marks: launch and index. -/
  units : List (Nat × Nat) := []
  /-- Requests numbered below this belong to the release of its fork (R193, R207, R297). -/
  after : Nat := 0
  /-- A lend whose page a trim or compaction removed or moved first (R260). -/
  lost : Bool := false
deriving DecidableEq, Repr

/-- A protected segment that is open (R353 to R357). -/
structure Seg where
  run : Nat
  check : Regs
  aside : Aside := {}
  /-- base_steps, loop0_steps, loop1_steps and signature of its .segtab entry (R39). -/
  base : Nat
  loop0 : Nat
  loop1 : Nat
  signature : BitVec 32
  segbPc : Word
  depth0 : Nat
  steps : Nat := 0
  loopPc : List Word := []
  n0 : Nat := 0
  n1 : Nat := 0
  z0 : Nat := 0
  z1 : Nat := 0
  ctl : BitVec 32 := 0xFFFFFFFF
  res : BitVec 32 := 0xFFFFFFFF
  stores : List SegStore := []
  loads : List LoadLog := []
  /-- In a rerun, the logged loads not yet taken. -/
  replay : List LoadLog := []
  undo : List Undo := []
  /-- The first halyard entry id of the segment. -/
  firstEntry : Nat := 0
  tiles : List TileLog := []
  deferred : List EngCmd := []
  dataErr : Bool := false
  /-- What run 2 kept: step count, control signature, result signature, data error. -/
  run2 : Option (Nat × BitVec 32 × BitVec 32 × Bool) := none
deriving DecidableEq, Repr

/-- The work unit on a context (R304): its launch's place in the package's table, linear index, gang, triggered mark. -/
structure Unit where
  launch : Nat
  index : Nat
  gang : Nat
  triggered : Bool
deriving DecidableEq, Repr

/-- A byte a context holds registered, and the tag it returns under: that of its last local write, or of its grant (R340). -/
structure OByte where
  val : Byte
  tag : Nat
deriving DecidableEq, Repr

/-- A context. Scalars, rows and latches are sparse: an unlisted key reads zero, or empty. -/
structure Ctx where
  regs : Regs
  v : Tab Row
  flights : List Flight
  bubble : Nat
  /-- The bundle to issue next has waited at stage 3 (R227). -/
  waited : Bool
  /-- What the last trap's record cannot say (R346): how many of its results were issued before a fence, and whether the bundle
  it stands at had waited, so that a fence holds across the trap (R227, R230; log entry 74). -/
  recOld : Nat
  recWaited : Bool
  /-- The rows and scalars, by key, that results in the last trap's record are to write (R164, R346). -/
  recDests : List Nat
  /-- A parity error that a read of the context's vector registers has met and nothing has accounted yet (R355; log entry 75). -/
  parity : Bool
  /-- Busy registers by key (row r, scalar 256 + i) with what they wait for (R136, R164). -/
  busy : Tab Nat
  marks : Tab (Option Mark)
  /-- A trap that waits for bubbles or for outstanding loads (R137, R350). -/
  pend : Option Trap
  /-- DONE has issued; its release is not yet complete (R86). -/
  ending : Bool
  /-- The context must give up its core when it can (R312). -/
  preempt : Bool
  /-- It must resume on another core where its mask admits one (R357). -/
  avoid : Bool
  /-- A YIELD has issued and its offer of issue stands (R85, R225). -/
  yielding : Bool
  /-- Arrived at a barrier (scope, id) and not yet departed (R208). -/
  arrived : Option (Nat × Nat)
  /-- The round it arrived for has completed (R208). -/
  released : Bool
  td : Tab (BitVec 512)
  cpat : BitVec 32
  astat : BitVec 7
  drainSum : Word
  drainCnt : Word
  lastLen : Word
  lastPages : Word
  unit : Option Unit
  /-- Units handed to this context by TAKE and not finished (R212); the launch of its last TAKE, which it acts for until its DONE
  (R291). -/
  taken : List Unit
  acts : Option Nat
  seg : Option Seg
  attached : Bool
  stopped : Bool
  /-- Registered bytes of OWN words: their local values, and the tags their last writes carry (R333, R340). -/
  owned : Tab (Option OByte)
  /-- PERF counters 0, 1, 3, 6 (R219). -/
  perfSteps : Word
  perfIssue : Word
  perfStall : Word
  perfEng : Word
  /-- The handle of an entry of this context that was dropped for want of a block (R278). -/
  dropped : Option Nat
deriving DecidableEq, Repr

/-- A context before any work unit (log entry 3). -/
def Ctx.reset : Ctx :=
  { regs := Regs.reset, v := [], flights := [], bubble := 0, waited := false, recOld := 0, recWaited := false, recDests := [], parity := false, busy := [], marks := [], pend := none
    ending := false, preempt := false, avoid := false, yielding := false, arrived := none, released := false, td := [], cpat := 0
    astat := 0, drainSum := 0, drainCnt := 0, lastLen := 0, lastPages := 0, unit := none, taken := [], acts := none, seg := none
    attached := false, stopped := false, owned := [], perfSteps := 0, perfIssue := 0, perfStall := 0, perfEng := 0
    dropped := none }

/-- What the walker resolved of a page as it staged it (R181, R243, R249): index, tokens a page, format code, mask bits, fill,
speculative length, and the FP32 scales that enter the boom. -/
structure Staged where
  pi : Nat
  T : Nat
  fmt : Nat
  bits : Nat
  fill : Nat
  spec : Nat
  sk : Nat
  sv : Nat
deriving DecidableEq, Repr

/-- A halyard entry with everything it captured (R163). `op` is R32's opcode; ATTN keeps its page in `page`. -/
structure HEntry where
  id : Nat
  c : Nat
  op : Nat
  sub : Nat := 0
  tile : Nat := 0
  cnt : Nat := 0
  ta : BitVec 512 := 0
  tb : BitVec 512 := 0
  pat : BitVec 32 := 0
  z : Bool := false
  ck : Bool := false
  stat : Bool := false
  fmt : Nat := 0
  codec : Nat := 0
  addr : Nat := 0
  hnd : Word := 0
  range : Word := 0
  dest : Nat := 0
  row : Row := 0
  pc : Word := 0
  /-- Steps of an MMA done, or pages of an ATTN done. -/
  pos : Nat := 0
  running : Bool := false
  started : Bool := false
  /-- Steps of an MMA's group whose operands are read, and the granules read so far: twice the index, plus 1 in the column store
  (R250). -/
  read : Nat := 0
  kept : Tab (Option (List Byte)) := []
  /-- An ATTN's page that stands in the staging area (R249). -/
  staged : Option Staged := none
  /-- An ATTN's first page (R181, R184). -/
  pi0 : Nat := 0
  held : Bool := false
  /-- A KV fault at the page boundary waits for the controller: its reason (R185). -/
  fault : Nat := 0
  gen : Nat := 0
deriving DecidableEq, Repr

/-- A copy channel (R202): the running thread, those waiting, the write pointer, the command started last. -/
structure Chan where
  run : Option Nat
  wait : List Nat
  wp : Word
  last : Option EngCmd
deriving DecidableEq, Repr

def Chan.idle : Chan := ⟨none, [], 0, none⟩

/-- A byte a core holds unpublished, with its writing context and the tag its store carries (R329, R340). -/
structure UByte where
  val : Byte
  g : Nat
  tag : Nat
deriving DecidableEq, Repr

/-- A copy of a line in a core's L1 (R139, R332): its 128 bytes, and the words registered elsewhere that it does not hold. -/
structure Copy where
  data : BitVec 1024
  notHeld : BitVec 32
deriving DecidableEq, Repr

/-- Health of a core (R358). -/
inductive Health
  | whole | reefed | out
deriving DecidableEq, Repr

/-- An entry of the append journal (R276). -/
structure JEntry where
  g : Nat
  launch : Option Nat
  /-- The launch tag its writes carry (R340). -/
  tag : Nat
  hnd : Word
  size : Nat
  record : List Byte
  data : List Byte
deriving DecidableEq, Repr

/-- A core. -/
structure Core where
  split : Nat
  moving : BitVec 32
  holder : Option Nat
  lastHolder : Nat
  passTo : Option Nat
  frozen : Nat
  thaw : Bool
  /-- The bits of the bundle that the freeze stands before: it has passed stage 3 and issues next (R229). -/
  fetched : Nat
  /-- The second clock of a reefed core's step comes next (R232). -/
  half : Bool
  /-- Write ports of vector register banks taken in the clock, by context*6 + bank (R21, R224). -/
  ports : List Nat
  /-- A residue error that the boom's next work meets (R188, R355; log entry 75). -/
  boomErr : Bool
  ram : Tab Byte
  /-- Bank owner: launch and claiming context (R145). -/
  banks : Tab (Option (Nat × Nat))
  col : Tab Byte
  /-- Tile cells by tile*16384 + row*64 + column. -/
  cells : Tab (BitVec 32)
  /-- Integer tiles, and tiles zeroed as integer (R65, R173). -/
  tInt : BitVec 12
  tZeroInt : BitVec 12
  tOwner : Tab (Option Nat)
  resValid : BitVec 12
  /-- Residues by tile*256 + row. -/
  resid : Tab Resid
  /-- Carry bm and bl by plane*256 + row (FP32 codes), row status (0 ok, 1 empty, 2 NaN). -/
  bm : Tab (BitVec 32)
  bl : Tab (BitVec 32)
  status : Tab Nat
  halyard : List HEntry
  nextEntry : Nat
  queues : Tab (List Row)
  engq : List EngCmd
  chans : Tab Chan
  siLines : Tab (Option Copy)
  wiLines : Tab (Option Copy)
  unpub : Tab (Option UByte)
  /-- Translations held by the TLBs: none unlisted; some none an answer that the page has no translation (R132). -/
  tlb : Tab (Option (Option PageMap))
  /-- Pages whose walk is asked for (R132). -/
  walks : List Nat
  journal : List JEntry
  health : Health
  /-- Logical row or column to physical, unlisted ones identity (R237); the checksum's physical column. -/
  rowMap : Tab (Option Nat)
  /-- Maps the controller is to write once the core's contexts have left: rows, columns, checksum column (R239). -/
  mapTo : Option (Tab (Option Nat) × Tab (Option Nat) × Nat)
  colMap : Tab (Option Nat)
  ckCol : Nat
  perfFreeze : Word
  perfSwitch : Word
  perfSlip : Word
  perfCopy : Word
deriving DecidableEq, Repr

/-- A core after reset (R365; log entries 2 and 3). -/
def Core.reset : Core :=
  { split := 0, moving := 0, holder := none, lastHolder := 3, passTo := none, frozen := 0, thaw := false, fetched := 0, half := false, ports := [], boomErr := false
    ram := [], banks := [], col := [], cells := [], tInt := 0, tZeroInt := 0, tOwner := [], resValid := 0, resid := []
    bm := [], bl := [], status := [], halyard := [], nextEntry := 0, queues := [], engq := [], chans := [], siLines := []
    wiLines := [], unpub := [], tlb := [], walks := [], journal := [], health := .whole, rowMap := [], mapTo := none, colMap := []
    ckCol := 384, perfFreeze := 0, perfSwitch := 0, perfSlip := 0, perfCopy := 0 }

/-- What a request to a home asks (R332). -/
inductive ReqKind
  | read | wiRead | write | own | atom
deriving DecidableEq, Repr

/-- A request of a context on its way to a home (R331), about one line. `words` are the 32-bit words concerned, `data`
the bytes to write at their offsets in the line, `load` the outstanding load it answers, `fn` and `v` an atomic. -/
structure Req where
  id : Nat
  g : Nat
  kind : ReqKind
  line : Nat
  words : BitVec 32
  data : List (Nat × Byte) := []
  load : Option Nat := none
  keep : Bool := false
  fn : AtomFn := .add
  w64 : Bool := false
  off : Nat := 0
  v : Word := 0
  new : Word := 0
  /-- A WI store: the writer keeps its sharing (R332). -/
  wi : Bool := false
  /-- An OWN request of an ATOM, performed at the grant (R332). -/
  atomic : Bool := false
  /-- Parts forwarded to a registrant and not yet answered (R317, R332). -/
  forwarded : Bool := false
  /-- The launch its write acts under (R340). -/
  tag : Nat := 0
deriving DecidableEq, Repr

/-- An outstanding global load or atomic (R133, R136): its destination key, bytes still asked for by line, bytes known. -/
structure GLoad where
  id : Nat
  g : Nat
  dest : Nat
  va : Word
  pa : Nat
  size : Nat
  known : List (Nat × Byte)
  asked : Nat
  poison : Option Nat := none
  abort : Bool := false
  /-- A result-returning engine form or atomic answers with this value when set (R198, R140). -/
  answer : Option Word := none
  /-- Its place in the load log of the segment it was issued in (R353). -/
  logAt : Option Nat := none
  /-- Whether it was issued in the segment its context is in (R353). -/
  inSeg : Bool := false
  /-- TAKE's second result and the wu registers that land with it (R212). -/
  also : List (Nat × Word) := []
  wu : List (Nat × Word) := []
deriving DecidableEq, Repr

/-- A directory slot (R330): global context and its registered words, oldest slot first in the list. -/
structure Slot where
  g : Nat
  mask : BitVec 32
deriving DecidableEq, Repr

/-- A directory entry (R330): sharers by core, slots oldest first. -/
structure DirLine where
  sharers : BitVec 32
  slots : List Slot
deriving DecidableEq, Repr

/-- What L2 knows of a line beside its data (R340, R341): dirty with its owner tag, uncorrectable. -/
structure L2Line where
  dirty : Bool
  owner : Nat
  shared : Bool
  bad : Bool
deriving DecidableEq, Repr

/-- A top-k selector instance (R215). -/
structure TopK where
  k : Nat
  mode : Nat
  pairs : List (BitVec 32 × Word)
  nans : Nat
  seen : Nat
deriving DecidableEq, Repr

/-- State of SHROUD.CFG (R361). -/
inductive ShState
  | off | ready | draining | zeroising
deriving DecidableEq, Repr

/-- A shroud. -/
structure Shroud where
  partFirst : Nat
  partLog2 : Nat
  gateClosed : Bool
  state : ShState
  probes : Nat
  refused : Nat
  /-- SHROUD.PWR.clk in MHz*50 steps and watts, as last measured (R393). -/
  clk : BitVec 8
  watts : BitVec 8
  /-- Route histogram counters by set*256 + bin, N32 (R214). -/
  hist : Tab Nat
  topk : Tab (Option TopK)
  dir : Tab (Option DirLine)
  /-- Lines with an entry, the least recently used first (R330). -/
  used : List Nat
  /-- Overflow summary: bucket to core mask (R330). -/
  summary : Tab (BitVec 32)
  l2 : Tab (Option L2Line)
  /-- Quarantined ways by set*24 + way (R341). -/
  qways : List Nat
  /-- The commit log: its 64-byte records, oldest first (R272); where in the shroud's HBM stack it lies (R261; log entry 20). -/
  commits : List (List Byte)
  logPlace : Option Nat
deriving DecidableEq, Repr

/-- Shroud k after package reset (R361, R393). -/
def Shroud.reset (k : Nat) : Shroud :=
  { partFirst := k, partLog2 := 0, gateClosed := true, state := .off, probes := 0, refused := 0, clk := 36, watts := 0
    hist := [], topk := [], dir := [], used := [], summary := [], l2 := [], qways := [], commits := [], logPlace := none }

/-- An entry of a partition's window table (R362). -/
structure Window where
  base : Nat
  length : Nat
  rights : BitVec 16
  up : Bool
  taint : BitVec 8
  written : BitVec 8
deriving DecidableEq, Repr

/-- A pod window (R204, R371): whether it is an import, its record's fields, whether it is up (R205). -/
structure PodWindow where
  imp : Bool
  rights : Nat
  chip : Nat
  remoteId : Nat
  base : Word
  length : Nat
  counter : Word
  tclass : Nat
  up : Bool
deriving DecidableEq, Repr

/-- A mailbox (R377): MBOX.ARG, the running command with the partition it acts on, MBOX.STAT's fields. -/
structure Mail where
  cmd : Nat
  part : Nat
  tag : Nat
  arg : Word
  state : Nat
  code : Nat
  answer : Nat
deriving DecidableEq, Repr

def Mail.reset : Mail := ⟨0, 0, 0, 0, 0, 0, 0⟩

/-- A notice ring (R380): base, size code and enable, head, tail; notices held for want of room. -/
structure Notices where
  base : Word
  ctl : Word
  head : Word
  tail : Word
  held : List (List Byte)
deriving DecidableEq, Repr

def Notices.reset : Notices := ⟨0, 0, 0, 0, []⟩

/-- A store of a partition (R262): its 256-byte descriptor, and where in the partition's HBM it lies (R261; log entry 38); all else lies
in memory (R263 to R271). -/
structure Store where
  desc : List Byte
  place : Option Nat := none
  /-- Reservations: launch and blocks (R279). -/
  rsv : List (Nat × Nat)
  /-- Borrowed frames: frame, lender chip, import window, frame size (R259, R282). -/
  lends : List (Nat × Nat × Nat × Nat)
  /-- Moves whose commit is made and whose release is not: references of the forwarded blocks (R274). -/
  moves : List Nat
deriving DecidableEq, Repr

/-- A lending pool (R282, R388): frame size, the free stack with its top first, lent frames with their borrowers; withdrawn. -/
structure LendPool where
  size : Nat
  free : List Nat
  lent : List (Nat × Nat)
  withdrawn : Bool
deriving DecidableEq, Repr

/-- A partition, keyed by its first shroud. -/
structure Part where
  pages : Tab (Option PageMap)
  /-- HBM pages in host bias, and flips under way (R383, R384). -/
  hostBias : List Nat
  flips : List (Nat × Bool)
  /-- Host writes by offset that wait for their page to flip to host bias, oldest first (R382). -/
  hostWaits : List (Nat × List Byte)
  biasReg : Word
  /-- The page of the flip that BIAS asked for and that runs (R384). -/
  biasRun : Option Nat
  windows : Tab (Option Window)
  pod : Tab (Option PodWindow)
  spnCtl : Word
  dropped : Nat
  stores : Tab (Option Store)
  faultBase : Word
  faultCount : Nat
  faultCtr : Word
  faultWritten : Nat
  trapBase : Word
  trapStride : Nat
  privilege : Bool
  /-- Blocks whose promotion is asked for: store and block reference (R217, R284). -/
  wants : List (Nat × Nat)
  /-- Stores that a scrub is due for (R275). -/
  scrubs : List Nat
  slots : Tab (BitVec 512)
  keyGen : Nat
  mail : Mail
  notes : Notices
  lendPools : Tab (Option LendPool)
  migration : Nat
  migBitmap : Word
  /-- The barrier tables of PART, of POD, and of DIE for each compute die: counts, and units that have arrived (R209). -/
  bars : Tab Nat
  barWait : Tab (List Nat)
deriving DecidableEq, Repr

/-- A partition as opened (R361; R375 reset values). -/
def Part.reset : Part :=
  { pages := [], hostBias := [], flips := [], hostWaits := [], biasReg := 0, biasRun := none, windows := [], pod := [], spnCtl := 0, dropped := 0
    stores := [], faultBase := 0, faultCount := 0, faultCtr := 0, faultWritten := 0, trapBase := 0, trapStride := 0
    privilege := false, wants := [], scrubs := [], slots := [], keyGen := 0, mail := Mail.reset, notes := Notices.reset, lendPools := []
    migration := 0, migBitmap := 0, bars := [], barWait := [] }

/-- Where a launch stands (R294). -/
inductive LState
  | held | eligible | running | final
deriving DecidableEq, Repr

/-- The final states and verdicts of a completion object (R194). -/
inductive Final
  | done | refused | faulted
deriving DecidableEq, Repr

/-- A saved context of a pre-empted unit (R313): the whole context, the core it ran on, whether it must resume there, the
core it must not resume on, its re-entry time (R314), and its banks, tiles, carries, unpublished bytes and entries. `slot` is the
context number it ran on. -/
structure Saved where
  unit : Unit
  ctx : Ctx
  core : Nat
  slot : Nat
  pinned : Bool
  avoid : Bool
  since : Word
  banks : List Nat
  ram : Tab Byte
  tiles : List TileLog
  carries : List TileLog
  unpub : List (Nat × UByte)
  entries : List HEntry
deriving DecidableEq, Repr

/-- A launch in a spindle (R210, R294 to R315): its 128-byte record as read from `va`, and its life. -/
structure Launch where
  id : Nat
  p : Nat
  va : Word
  record : List Byte
  stage : LState
  outcome : Option Final
  code : Nat
  verdict : Nat
  /-- The spindle slice that holds its entry, by shroud (R296). -/
  slice : Nat
  /-- Held failed: the dependence that failed (R294, R301). -/
  failed : Option Nat
  /-- Work units not dispatched, outstanding, and triggered. -/
  next : Nat
  total : Nat
  outstanding : Nat
  triggered : Nat
  trig : Bool
  /-- The time of entry to the spindle (R306). -/
  since : Word
  /-- When its next gang was first passed over, and whether contexts are kept for it (R307). -/
  passed : Option Word
  kept : Bool
  /-- Contexts being freed for it by pre-emption (R311). -/
  claim : List Nat
  saved : List Saved
  fault : Word
  /-- Dependences of need 0 satisfied by trig that have not yet been seen final: they must be final first; and whether one that
  counts under R302, a released one included, ended refused, faulted or tainted. -/
  owed : List Nat
  owedBad : Bool
  /-- Dependences that count as satisfied (R300, R301). -/
  met : List Nat
deriving DecidableEq, Repr

/-- An engine thread (R193, R195, R335): its command, core and partition; progress in bytes or units; its state code (1
running, 2 done, 3 refused, 4 faulted), reason and faulting address; whether a put is on its way; an expand's source offset; the
4 KiB piece of its transfer it translated for last, with the translations of that moment (R351); by virtual address, the bytes of the
last 16-byte source piece that its batch did not take (R321). -/
structure Thread where
  id : Nat
  cmd : EngCmd
  core : Nat
  p : Nat
  progress : Nat := 0
  state : Nat := 1
  code : Nat := 0
  faultVa : Word := 0
  sent : Bool := false
  pos : Nat := 0
  piece : Option Nat := none
  pages : Tab (Option PageMap) := []
  kept : List (Nat × Byte) := []
deriving DecidableEq, Repr

/-- A poisoned line whose page is still to be retired (R341 steps 4 and 5): where it stood, its victims that have stopped, its victims
that were done, each with whether a dependence on it is to be decided once more; their completion objects are written after. -/
structure BadLine where
  line : Nat
  way : Nat
  ends : List Nat
  taints : List (Nat × Bool)
deriving DecidableEq, Repr

/-- An IDE stream of the host port (R374): secure, failed its integrity check, keys programmed by direction and set, the
running sets. -/
structure Ide where
  secure : Bool
  failed : Bool
  keys : List (Bool × Bool × BitVec 256)
  rxSet : Option Bool
  txSet : Option Bool
deriving DecidableEq, Repr

/-- A Zellen port (R386): up, failures in a row (at eight it retrains), the next sequence number awaited, delivered bodies,
refusals. -/
structure Port where
  up : Bool
  fails : Nat
  next : BitVec 32
  delivered : List (BitVec 1984)
  naks : Nat
deriving DecidableEq, Repr

/-- A port before its link has trained (log entry 3). -/
def Port.reset : Port := ⟨false, 0, 0, [], 0⟩

/-- A pool decoder (R385): base, size, and the port choice: 0, 1, or 2 for both interleaved. -/
structure PoolDec where
  base : Word
  size : Word
  ctl : Word
deriving DecidableEq, Repr

/-- What a migration saved of a partition (R389 step 0x23): its first shroud and size, its HBM by offset, its structures, its
open launches by place, and of each of its cores by offset the split, the owned banks and their bytes. -/
structure Image where
  p : Nat
  log2 : Nat
  mem : Tab Byte
  part : Part
  launches : List (Nat × Launch)
  cores : List (Nat × Core)
  /-- The commit log of each shroud and its place, the first first (R261, R272). -/
  commits : List (Option Nat × List (List Byte))
deriving DecidableEq, Repr

/-- HEALTH (R359): the fields that are kept, replace and the counts; out, reefed, srows and scols are computed. -/
structure HealthReg where
  replace : Bool
  retired : Nat
  corrected : Nat
  ue : Nat
deriving DecidableEq, Repr

/-- What the machine does next when the agenda is empty (log entry 1). -/
inductive Phase
  | clock | event
deriving DecidableEq, Repr

/-- The package. -/
structure State where
  timebase : Word
  /-- All memory by unified address (log entry 6): HBM from 0, pool from 2^51, host from 2^52. -/
  mem : List Host.Cell
  ctxs : Tab Ctx
  cores : Tab Core
  /-- Shrouds that differ from their reset form, by number. -/
  shrouds : Tab (Option Shroud)
  parts : Tab Part
  launches : List Launch
  nextLaunch : Nat
  threads : List Thread
  nextThread : Nat
  reqs : List Req
  nextReq : Nat
  loads : List GLoad
  /-- Puts to other chips not yet acknowledged (R205): the thread of a put, chip, bytes. -/
  outbox : List (Option Nat × Nat × List Byte)
  /-- What this package put into other chips' pod windows (log entry 6): by chip, window and offset. -/
  remote : Tab (Option Byte)
  chipMaster : BitVec 12
  healthReg : HealthReg
  limit : Word
  /-- PKS.STAT fields and PKS.PLIMIT (R392). -/
  power : BitVec 16
  temp : BitVec 8
  throttled : Bool
  hot : Bool
  boot : Nat
  plimit : BitVec 16
  mail : Mail
  notes : Notices
  /-- The pool decoders, and which pool ports are up (R385, R395). -/
  pools : Tab (Option PoolDec)
  poolUp : BitVec 2
  ports : Tab Port
  /-- Links of the torus elsewhere that are down: the chip and the dimension of the link in its positive direction (R387). -/
  links : List (Nat × Nat)
  ide : Tab (Option Ide)
  spdm : List (Nat × Bool)
  /-- The last attestation report of each function (R391). -/
  doe : Tab (List Byte)
  /-- Retired HBM frames (R341, R365). -/
  retired : List Nat
  /-- Poisoned lines whose page is still to be retired (R341). -/
  retiring : List BadLine
  /-- Saved partitions by the host address of their buffer (R389). -/
  images : Tab (Option Image)
  fwFlash : List Byte
  fwVersion : Word
  mslots : Tab (BitVec 512)
  powered : Bool
  stoppedByHeat : Bool
  /-- What the host's last read of a register that reading changes gave (R299, R364, R392). -/
  hostRead : Word
  /-- The model's own fields: the order of what comes next, the next free value (log entries 1, 11). -/
  agenda : List Instr
  turn : Nat
  phase : Phase
  freeCtr : Nat
deriving DecidableEq, Repr

/-- The package right after a package reset (R396, R365): everything zeroised, every shroud off, boot begun. Where the
manual states no value the log entries 2 to 4 name it. -/
def State.reset : State :=
  { timebase := 0, mem := [], ctxs := [], cores := [], shrouds := [], parts := [], launches := [], nextLaunch := 0
    threads := [], nextThread := 0, reqs := [], nextReq := 0, loads := [], outbox := [], remote := [], chipMaster := 0
    healthReg := ⟨false, 0, 0, 0⟩, limit := 0x0000004480100000, power := 0, temp := 0, throttled := false, hot := false
    boot := 0, plimit := 2200, retiring := [], mail := Mail.reset, notes := Notices.reset, pools := [], poolUp := 0, ports := [], links := [], ide := [], spdm := [], doe := [], retired := [], images := []
    fwFlash := [], fwVersion := 0, mslots := [], powered := true, stoppedByHeat := false, hostRead := 0, agenda := [], turn := 0
    phase := .clock, freeCtr := 0 }

end Sys2Proof.Machine
end

