-- ==== Sys2Proof/Machine/Access.lean ====
section
/-! DEFINITION. Reading and replacing the parts of the state: contexts, cores, shrouds, partitions, registers. -/

namespace Sys2Proof.Machine

/-- Context g (0–127, R3). -/
def State.ctx (s : State) (g : Nat) : Ctx := Tab.get Ctx.reset s.ctxs g
def State.setCtx (s : State) (g : Nat) (c : Ctx) : State := { s with ctxs := Tab.set Ctx.reset s.ctxs g c }
def State.updCtx (s : State) (g : Nat) (f : Ctx → Ctx) : State := s.setCtx g (f (s.ctx g))

/-- Core k (0–31). -/
def State.core (s : State) (k : Nat) : Core := Tab.get Core.reset s.cores k
def State.setCore (s : State) (k : Nat) (c : Core) : State := { s with cores := Tab.set Core.reset s.cores k c }
def State.updCore (s : State) (k : Nat) (f : Core → Core) : State := s.setCore k (f (s.core k))

/-- Shroud k (0–7). -/
def State.shroud (s : State) (k : Nat) : Shroud := (Tab.get none s.shrouds k).getD (Shroud.reset k)
def State.setShroud (s : State) (k : Nat) (h : Shroud) : State :=
  { s with shrouds := Tab.set none s.shrouds k (if h = Shroud.reset k then none else some h) }
def State.updShroud (s : State) (k : Nat) (f : Shroud → Shroud) : State := s.setShroud k (f (s.shroud k))

/-- Partition with first shroud p. -/
def State.part (s : State) (p : Nat) : Part := Tab.get Part.reset s.parts p
def State.setPart (s : State) (p : Nat) (x : Part) : State := { s with parts := Tab.set Part.reset s.parts p x }
def State.updPart (s : State) (p : Nat) (f : Part → Part) : State := s.setPart p (f (s.part p))

/-- Launch by its place. -/
def State.updLaunch (s : State) (l : Nat) (f : Launch → Launch) : State :=
  { s with launches := s.launches.modify l f }

/-- The first shroud of core k's partition, its shroud count, its cores (R3, R361). -/
def State.partOf (s : State) (k : Nat) : Nat := (s.shroud (k / 4)).partFirst
def State.partSize (s : State) (p : Nat) : Nat := 2 ^ (s.shroud p).partLog2
def State.inPart (s : State) (p sh : Nat) : Bool := decide (p ≤ sh) && decide (sh < p + s.partSize p)
def State.partCores (s : State) (p : Nat) : List Nat := (List.range 32).filter fun k => s.inPart p (k / 4)

/-- The next free value's number, and the state after taking it (log entry 11). -/
def State.tick (s : State) : State := { s with freeCtr := s.freeCtr + 1 }

/-- s(i): s0 reads zero (R69). -/
def Regs.getS (r : Regs) (i : Nat) : Word := if i = 0 then 0 else Tab.get 0 r.s i
/-- s(i) := w; a write to s0 is discarded (R69). -/
def Regs.setS (r : Regs) (i : Nat) (w : Word) : Regs := if i = 0 then r else { r with s := Tab.set 0 r.s i w }
def Regs.getBt (r : Regs) (i : Nat) : Word := Tab.get 0 r.bt i
def Regs.setBt (r : Regs) (i : Nat) (w : Word) : Regs := { r with bt := Tab.set 0 r.bt i w }
/-- p(i): p0 true, p1 false (R69). -/
def Regs.getP (r : Regs) (i : Nat) : Bool := if i = 0 then true else if i = 1 then false else r.pred.getLsbD i
/-- The pair p(2j), p(2j+1) := b, not b; pair 0 is ignored (R69, R95). -/
def Regs.setPair (r : Regs) (j : Nat) (b : Bool) : Regs :=
  if j = 0 then r
  else
    let m : BitVec 16 := BitVec.ofNat 16 (3 <<< (2 * j))
    let v : BitVec 16 := BitVec.ofNat 16 ((if b then 1 else 2) <<< (2 * j))
    { r with pred := (r.pred &&& ~~~m) ||| v }
def Regs.getX (r : Regs) (i : Nat) : Nat := (Tab.get 0 r.x i).toNat
def Regs.setX (r : Regs) (i v : Nat) : Regs := { r with x := Tab.set 0 r.x i (BitVec.ofNat 8 v) }
def Regs.getSc (r : Regs) (i : Nat) : Row := Tab.get 0 r.sc i
def Regs.setSc (r : Regs) (i : Nat) (v : Row) : Regs := { r with sc := Tab.set 0 r.sc i v }
/-- Latch rows of R347: l0–l7 are 0–7, then VA.a VA.b VA.c VB.a VB.b VB.c XF.a. -/
def Regs.getLatch (r : Regs) (i : Nat) : Option Row := Tab.get none r.latch i
def Regs.setLatch (r : Regs) (i : Nat) (v : Row) : Regs := { r with latch := Tab.set none r.latch i (some v) }
/-- Every latch emptied (R108). -/
def Regs.emptyLatches (r : Regs) : Regs := { r with latch := [] }

def Ctx.getV (c : Ctx) (i : Nat) : Row := Tab.get 0 c.v i
def Ctx.setV (c : Ctx) (i : Nat) (v : Row) : Ctx := { c with v := Tab.set 0 c.v i v }
def Ctx.updRegs (c : Ctx) (f : Regs → Regs) : Ctx := { c with regs := f c.regs }

/-- The context stops at the next bundle boundary to be saved; one with a segment open first reaches its SEGE (R312, R354). -/
def Ctx.giving (c : Ctx) : Bool := c.preempt && c.seg.isNone

/-- Busy and mark keys: row r is r, scalar i is 256 + i. -/
def rowKey (r : Nat) : Nat := r
def sKey (i : Nat) : Nat := 256 + i
def Ctx.isBusy (c : Ctx) (key : Nat) : Bool := Tab.get 0 c.busy key != 0

/-- A write to a register clears its mark (R136). -/
def Ctx.clearMark (c : Ctx) (key : Nat) : Ctx := { c with marks := Tab.set none c.marks key none }

/-- The launch a context runs, if it runs a unit. -/
def Ctx.launch (c : Ctx) : Option Nat := c.unit.map (·.launch)

/-- The launch a context's writes act under: that of its last TAKE, until its DONE (R291, R340). -/
def Ctx.writer (c : Ctx) : Option Nat := c.acts.or c.launch

/-- The id of a launch as programs see it (R211; log entry 10). -/
def State.launchId (s : State) (l : Nat) : Nat := match s.launches[l]? with | some x => x.id | none => 0
/-- The id the next accepted launch takes: above every id assigned or restored before (R211, R389). -/
def State.freshId (s : State) : Nat := Config.launchIdBase + s.nextLaunch + 1

end Sys2Proof.Machine
end

