-- ==== Sys2Proof/Machine/Coh.lean ====
section
/-! DEFINITION. Global memory: homes, translation and its checks, home reads and writes with revocation and invalidation, publication, releases and acquires, requests (R41, R131, R321 to R340). -/

namespace Sys2Proof.Machine

/-- Unified physical addresses (log entry 6): HBM below 2^39, pool from 2^51 (so that pa[51] tells them apart, R41), host from 2^52. -/
def hbmTop : Nat := 2 ^ 39
def poolBase : Nat := 2 ^ 51
def hostBase : Nat := 2 ^ 52

/-- Home(pa, f, n) (R41). -/
def homeOf (pa f n : Nat) : Nat :=
  f + ((List.range 12).foldl (fun h i => h ^^^ field pa (12 + 3 * (i + 1)) 3) (field pa 12 3) ^^^ field pa 51 1) % n

/-- The physical address of an offset in a mapped page. -/
def pagePa (m : PageMap) (off : Nat) : Nat :=
  (match m.mtype with
    | .hbm | .window | .pod => 0
    | .pool => poolBase
    | .host => hostBase) + m.frame * 65536 + off

/-- The 64 KiB virtual page of an address (R131; log entry 7). -/
def vpageOf (va : Word) : Nat := field va.toNat 16 39

/-- Bits [63:55] equal bit 54 (R131 check 1). -/
def canonical (va : Word) : Bool := field va.toNat 54 10 == 0 || field va.toNat 54 10 == 1023

/-- The mapping the shroud controller holds for a page of partition p. -/
def State.mapOf (s : State) (p : Nat) (va : Word) : Option PageMap := Tab.get none (s.part p).pages (vpageOf va)

/-- The partition that owns a physical address: HBM by stack, else the accessor's own (R362). -/
def State.ownerPart (s : State) (p pa : Nat) : Nat := if pa < hbmTop then (s.shroud (pa / 2 ^ 36)).partFirst else p

/-- The shroud that homes an address for partition p (R41). -/
def State.homeShroud (s : State) (p pa : Nat) : Nat := let f := s.ownerPart p pa; homeOf pa f (s.partSize f)

/-- The window of partition q that holds a physical address (R362). -/
def State.windowAt (s : State) (q pa : Nat) : Option (Nat × Window) :=
  (s.part q).windows.findSome? fun e =>
    match e.2 with
    | some w => if w.base ≤ pa ∧ pa < w.base + w.length then some (e.1, w) else none
    | none => none

/-- What an access does (R131 check 4). -/
inductive Acc
  | read | write | atomic | fetch
deriving DecidableEq, Repr

/-- Whether a mapping carries the right an access needs (R131). -/
def hasRight (m : PageMap) : Acc → Bool
  | .read => m.r
  | .write => m.w
  | .atomic => m.a
  | .fetch => m.x

/-- Whether a mapping's frame, if it is of type HBM, is of the partition's own stacks: gates refuse a request to any other (R363). -/
def State.frameHere (s : State) (p : Nat) (m : PageMap) : Bool :=
  m.mtype != .hbm || (decide (m.frame < 2 ^ 23) && s.inPart p (m.frame / 2 ^ 20))

/-- R131 checks 4 and 5 on a mapping: none when the access may proceed. The gate of a partition that drains refuses its requests
(R363, R365), and so does one that a frame of another partition would be reached through. -/
def State.mapCheck (s : State) (p : Nat) (m : PageMap) (off : Nat) (acc : Acc) : Option TrapCode :=
  if !hasRight m acc || m.mtype == .pod || (acc == .atomic && m.mtype == .host) || !s.frameHere p m then some .access
  else if m.mtype == .window && (s.shroud p).gateClosed then some .window
  else if m.mtype == .window then
    match s.windowAt m.gate.toNat (pagePa m off) with
    | none => some .window
    | some (_, w) =>
      let rd := w.rights.getLsbD (2 * p)
      let wr := w.rights.getLsbD (2 * p + 1)
      let ok := match acc with
        | .read | .fetch => rd
        | .write => wr
        | .atomic => rd && wr
      if w.up && ok then none else some .window
  else none

/-- Whether a store that leaves its core passes the gates to its home (R363): within its partition, or into a window that is up and
admits it. -/
def State.gatePasses (s : State) (p pa : Nat) : Bool :=
  let q := s.ownerPart p pa
  q == p || (!(s.shroud p).gateClosed && (s.windowAt q pa).any fun e => e.2.up && e.2.rights.getLsbD (2 * p + 1))

/-- The checks of a global address in R131's order, under a translation already looked up. -/
def State.globalCheck (s : State) (p : Nat) (va : Word) (align : Nat) (acc : Acc) (m : Option PageMap) :
    Except TrapCode Nat :=
  if !canonical va then .error .access
  else if va.toNat % align != 0 then .error .align
  else
    match m with
    | none => .error .page
    | some m =>
      match s.mapCheck p m (va.toNat % 65536) acc with
      | some t => .error t
      | none => .ok (pagePa m (va.toNat % 65536))

/-- The checks of R131 under given translations. -/
def State.resolveVia (s : State) (pages : Tab (Option PageMap)) (p : Nat) (va : Word) (align : Nat) (acc : Acc) : Except TrapCode Nat :=
  s.globalCheck p va align acc (Tab.get none pages (vpageOf va))

/-- The checks of R131 with the controller's own mapping: fetches, engines, controllers. -/
def State.resolve (s : State) (p : Nat) (va : Word) (align : Nat) (acc : Acc) : Except TrapCode Nat :=
  s.globalCheck p va align acc (s.mapOf p va)

/-- The policy an access acts under on a page (R139, R336, R383). -/
def State.effPol (s : State) (p : Nat) (m : PageMap) (cp : Pol) : Pol :=
  if m.mtype == .host || m.mtype == .window || !m.cacheable || (m.mtype == .hbm && (s.part p).hostBias.contains m.frame)
  then .wt else cp

/-- The context that holds a byte registered, and its local value (R332, R333). -/
def ownerOf : Tab Ctx → Nat → Option (Nat × OByte)
  | [], _ => none
  | (g, c) :: t, a =>
    match Tab.get none c.owned a with
    | some b => some (g, b)
    | none => ownerOf t a

/-- A byte as the home answers it: the registrant's value, else memory (R317, R332). -/
def State.homeByte (s : State) (a : Nat) : Byte :=
  match ownerOf s.ctxs a with
  | some (_, b) => b.val
  | none => Mem.read s.mem a

/-- The value a write of core k that its home has not yet answered gives a byte, the latest first. -/
def State.sentByte (s : State) (k a : Nat) : Option Byte :=
  s.reqs.foldl (fun v r => if r.g / 4 = k then ((r.data.find? fun b => b.1 == a).map (·.2)).or v else v) none

/-- A byte as a core's contexts see it under R323: unpublished first, then as it stands on its way to its home, then registered or at
home. -/
def State.seenByte (s : State) (k a : Nat) : Byte :=
  match Tab.get none (s.core k).unpub a with
  | some u => u.val
  | none => (s.sentByte k a).getD (s.homeByte a)

/-- The n bytes from a as the home answers them. -/
def State.homeBytes (s : State) (a : Nat) : Nat → List Byte
  | 0 => []
  | n + 1 => s.homeByte a :: s.homeBytes (a + 1) n

/-- The little-endian number of n bytes at home. -/
def State.homeN (s : State) (a n : Nat) : Nat := bytesNat (s.homeBytes a n)

/-- The words of a line that addresses touch. -/
def wordMask (line : Nat) (as : List Nat) : BitVec 32 :=
  as.foldl (fun m a => if a / 128 = line then m ||| (1#32 <<< (a % 128 / 4)) else m) 0

/-- Whether word i of a line is in a mask. -/
def inMask (m : BitVec 32) (a : Nat) : Bool := m.getLsbD (a % 128 / 4)

/-- Who writes at a home: launch tag (0 for host and controllers), partition, and the core that keeps its WI copy. -/
structure Writer where
  tag : Nat
  p : Nat
  keep : Option Nat := none
deriving DecidableEq, Repr

/-- OWNER_TAG_UPDATE (R340): the tag of a line after an accepted write. -/
def tagAfter (t : Option L2Line) (id : Nat) : Option L2Line :=
  match t with
  | none => some ⟨true, id, false, false⟩
  | some l =>
    if !l.dirty then some { l with dirty := true, owner := id, shared := false }
    else if id = 0 ∨ l.owner = id then some l
    else if l.owner = 0 then some { l with owner := id }
    else some { l with owner := id, shared := true }

/-- The tag a context's writes carry (R340). -/
def State.tagOf (s : State) (g : Nat) : Nat := match (s.ctx g).writer with | some l => l + 1 | none => 0

/-- Returned words of a revocation: the bytes that context g holds registered of a line's words, with their tags (R332, R340). -/
def Ctx.ownedIn (c : Ctx) (line : Nat) (m : BitVec 32) : List (Nat × OByte) :=
  c.owned.filterMap fun e => if e.1 / 128 = line && inMask m e.1 then e.2.map fun b => (e.1, b) else none

/-- A context gives up words of a line. -/
def Ctx.dropOwned (c : Ctx) (line : Nat) (m : BitVec 32) : Ctx :=
  { c with owned := Tab.keep (fun a _ => !(decide (a / 128 = line) && inMask m a)) c.owned }

/-- Whether packets of the CXL.io stream, or of CXL.cache and CXL.mem, are dropped: it failed and has no new keys yet (R374). -/
def State.ioFailed (s : State) : Bool := s.ide.any fun e => decide (e.1 < 4) && e.2.any fun i => i.failed
def State.memFailed (s : State) : Bool := s.ide.any fun e => e.1 == 4 && e.2.any fun i => i.failed

/-- The page log of a migration: a written HBM page's bit is set in the partition's host bitmap (R389 step 0x20). -/
def State.logPage (s : State) (page : Nat) : State :=
  let q := (s.shroud (page / 2 ^ 20)).partFirst
  let i := page - q * 2 ^ 20
  let a := hostBase + (s.part q).migBitmap.toNat + i / 8
  if page < 2 ^ 23 ∧ (s.part q).migration ≠ 0 ∧ !s.ioFailed then
    { s with mem := Mem.write s.mem a (Mem.read s.mem a ||| BitVec.ofNat 8 (2 ^ (i % 8))) }
  else s

/-- Bytes performed at memory. -/
def State.poke (s : State) (bs : List (Nat × Byte)) : State :=
  let s : State := { s with mem := bs.foldl (fun m e => Mem.write m e.1 e.2) s.mem }
  ((bs.map fun e => e.1 / 65536).eraseDups).foldl State.logPage s

/-- A line's 128 bytes with some bytes replaced. -/
def patchLine (d : BitVec 1024) (line : Nat) (bs : List (Nat × Byte)) : BitVec 1024 :=
  bs.foldl (fun d e =>
    if e.1 / 128 = line then
      let m : BitVec 1024 := 0xFF#1024 <<< (8 * (e.1 % 128))
      let v : BitVec 1024 := BitVec.ofNat 1024 (e.2.toNat * 2 ^ (8 * (e.1 % 128)))
      (d &&& ~~~m) ||| v
    else d) d

/-- Copies a core holds of a line take bytes that a context of the core wrote or was answered, so that no later read of the core
returns an older value (R322). -/
def State.patchCopies (s : State) (k : Nat) (bs : List (Nat × Byte)) : State :=
  s.updCore k fun c =>
    { c with siLines := c.siLines.map fun e => (e.1, e.2.map fun v => { v with data := patchLine v.data e.1 bs })
             wiLines := c.wiLines.map fun e => (e.1, e.2.map fun v => { v with data := patchLine v.data e.1 bs }) }

/-- Whether an error made L2's copy of a line poison (R341). -/
def State.isBad (s : State) (sh line : Nat) : Bool :=
  match Tab.get none (s.shroud sh).l2 line with
  | some l => l.bad
  | none => false

/-- The bytes of words of a line, as the home or their registrants answer them. -/
def State.wordBytes (s : State) (line : Nat) (m : BitVec 32) : List (Nat × Byte) :=
  ((List.range 128).filter fun i => m.getLsbD (i / 4)).map fun i => (line * 128 + i, s.homeByte (line * 128 + i))

/-- Poison of a line's answer (R341). -/
def State.poisonOf (s : State) (sh line : Nat) : Option Nat := if s.isBad sh line then some line else none

/-- A request leaves the line. -/
def State.dropReq (s : State) (id : Nat) : State := { s with reqs := s.reqs.filter fun q => q.id != id }

/-- Bytes handed to an outstanding load (offsets from its address). -/
def State.answer (s : State) (id : Nat) (bs : List (Nat × Byte)) (poison : Option Nat) : State :=
  { s with loads := s.loads.map fun l =>
      if l.id = id then
        { l with known := l.known ++ (bs.filterMap fun e => if l.pa ≤ e.1 ∧ e.1 < l.pa + l.size then some (e.1 - l.pa, e.2) else none)
                 asked := l.asked - 1
                 poison := match l.poison with | some x => some x | none => poison }
      else l }

/-- A forwarded read is answered with its words as they stand (R317). -/
def State.answerForwarded (s : State) (r : Req) : State :=
  let now := s.wordBytes r.line r.words
  let po := s.poisonOf (s.homeShroud (s.partOf (r.g / 4)) (r.line * 128)) r.line
  let s := (s.dropReq r.id).patchCopies (r.g / 4) now
  match r.load with
  | some l => s.answer l now po
  | none => s

/-- Reads of a line that its home has forwarded reach the registrants before what follows there: they are answered first (R331,
R334). -/
def State.flushReads (s : State) (line : Nat) (m : BitVec 32) : State :=
  (s.reqs.filter fun r => r.forwarded && r.line == line && (r.words &&& m) != 0).foldl State.answerForwarded s

/-- A message of home sh to core k arrives after every read that this home forwarded to a registrant of the core: those are answered
first (R317, R331). -/
def State.flushTo (s : State) (sh k : Nat) : State :=
  (s.reqs.filter fun r => r.forwarded && s.homeShroud (s.partOf (r.g / 4)) (r.line * 128) == sh &&
    [0, 1, 2, 3].any fun c => (s.ctx (4 * k + c)).ownedIn r.line r.words != []).foldl State.answerForwarded s

/-- The dirty lines of a set of a slice that may be written back, all but one line. -/
def Shroud.dirtyIn (h : Shroud) (set : BitVec 14) (line : Nat) : List Nat :=
  h.l2.filterMap fun e => if e.1 != line && Config.l2Set e.1 == set && e.2.any (fun v => v.dirty && !v.bad) then some e.1 else none

/-- One of the dirty lines of a set is written back, a free one: it is clean, and has no tag (R340; log entry 71). -/
def State.writeBack (s : State) (sh line : Nat) : State :=
  let others := (s.shroud sh).dirtyIn (Config.l2Set line) line
  match others[(Config.freeWord s.freeCtr).toNat % others.length]? with
  | none => s
  | some v => s.tick.updShroud sh fun h => { h with l2 := Tab.set none h.l2 v none }

/-- The ways of a line's set that no new line can take: the quarantined, and those of poisoned lines whose way is not quarantined
yet (R4, R341). -/
def State.waysOut (s : State) (sh line : Nat) : Nat :=
  let set := Config.l2Set line
  ((s.shroud sh).qways.filter fun q => q / 24 == set.toNat).length +
  (s.retiring.filter fun r => Config.l2Set r.line == set && (Tab.get none (s.shroud sh).l2 r.line).isSome).length

/-- A line written in L2 takes its tag; where that leaves its set more lines than ways, others are written back until it fits, which
the manual does not choose; with no way left the line itself is (R4, R340, R341; log entry 71). Host memory has no place in L2. -/
def State.dirtyLine (s : State) (sh line tag : Nat) : State :=
  if hostBase ≤ line * 128 then s
  else
    let s := s.updShroud sh fun h => { h with l2 := Tab.set none h.l2 line (tagAfter (Tab.get none h.l2 line) tag) }
    let h := s.shroud sh
    if h.l2.length + h.qways.length ≤ 24 then s
    else
      let room := 24 - s.waysOut sh line
      if room = 0 then s.updShroud sh fun h => { h with l2 := Tab.set none h.l2 line none }
      else (List.range ((h.dirtyIn (Config.l2Set line) line).length + 1 - room)).foldl (fun s _ => s.writeBack sh line) s

/-- Words of a line that a registrant returns: they enter memory under the tags of their writes, unless the line is poisoned (R332,
R340, R341). -/
def State.returned (s : State) (sh line g : Nat) (bs : List (Nat × OByte)) : State :=
  let vs := bs.map fun b => (b.1, b.2.val)
  if s.isBad sh line then s
  else ((bs.map fun b => b.2.tag).eraseDups).foldl (fun s tag => s.dirtyLine sh line tag) ((s.poke vs).patchCopies (g / 4) vs)

/-- The words of every registrant but `x` return, and their slots lose them (R332). -/
def State.revoke (s : State) (sh line : Nat) (m : BitVec 32) (x : Option Nat) : State :=
  let s := s.flushReads line m
  let s := s.ctxs.foldl (fun s e =>
    if some e.1 = x ∨ (s.ctx e.1).ownedIn line m = [] then s
    else
      let s := s.flushTo sh (e.1 / 4)
      (s.returned sh line e.1 ((s.ctx e.1).ownedIn line m)).updCtx e.1 fun c => c.dropOwned line m) s
  s.updShroud sh fun h =>
    match Tab.get none h.dir line with
    | none => h
    | some d =>
      let lose (t : Slot) : Slot := if some t.g = x then t else { t with mask := t.mask &&& ~~~m }
      let sl := (d.slots.map lose).filter fun t => t.mask != 0
      { h with dir := Tab.set none h.dir line (some { d with slots := sl }) }

/-- CORE_INVALIDATION (R332): a core drops its WI copy of a line; with none it answers "not held". -/
def State.dropWi (s : State) (k line : Nat) : State :=
  s.updCore k fun c => { c with wiLines := Tab.set none c.wiLines line none }

/-- The invalidations of a write (R332): every sharer but the keeper, and the summary's cores, which may hold a copy from before the
line's entry was last freed (R319, R330; log entry 79); a core outside the partition is answered for at the gate (R363). -/
def State.invalidate (s : State) (p sh line : Nat) (keep : Option Nat) : State :=
  let h := s.shroud sh
  let mask := (match Tab.get none h.dir line with | some d => d.sharers | none => 0) |||
    Tab.get 0 h.summary (Config.summaryHash line).toNat
  (List.range 32).foldl (fun s k =>
    if mask.getLsbD k && some k != keep then
      (if s.inPart p (k / 4) then (s.flushTo sh k).dropWi k line
       else s.updShroud (k / 4) fun h => { h with probes := min (h.probes + 1) (2 ^ 32 - 1) })
    else s) s

/-- A write to words of one line accepted at home (R332): revoke, invalidate, perform, tag, sharers. A poisoned line drops it
(R341). -/
def State.lineEvent (s : State) (w : Writer) (line : Nat) (m : BitVec 32) (put : State → State) : State :=
  let q := s.ownerPart w.p (line * 128)
  let sh := s.homeShroud w.p (line * 128)
  let s := s.revoke sh line m none
  let s := s.invalidate q sh line w.keep
  let s := if s.isBad sh line then s else (put s).dirtyLine sh line w.tag
  let s := s.updShroud sh fun h =>
    let d := (Tab.get none h.dir line).getD ⟨0, []⟩
    let sh' := match w.keep with | some k => (1#32 <<< k) | none => 0
    { h with dir := Tab.set none h.dir line (if sh' = 0 ∧ d.slots = [] then none else some { d with sharers := sh' }) }
  if q = w.p then s
  else
    match s.windowAt q (line * 128) with
    | none => s
    | some (i, v) => s.updPart q fun x => { x with windows := Tab.set none x.windows i (some { v with written := v.written ||| (1#8 <<< w.p) }) }

/-- Bytes of one line written at its home. -/
def State.lineWrite (s : State) (w : Writer) (line : Nat) (bs : List (Nat × Byte)) : State :=
  s.lineEvent w line (wordMask line (bs.map (·.1))) fun s => s.poke bs

/-- A whole line set to zero at its home. -/
def State.lineZero (s : State) (w : Writer) (line : Nat) : State :=
  s.lineEvent w line 0xFFFFFFFF fun s =>
    { s with mem := Tab.keep (fun a _ => a / 128 != line) s.mem }.logPage (line * 128 / 65536)

/-- Bytes written at their homes, line by line in ascending order. -/
def State.homeWrite (s : State) (w : Writer) (bs : List (Nat × Byte)) : State :=
  ((bs.map fun e => e.1 / 128).eraseDups).foldl (fun s line => s.lineWrite w line (bs.filter fun e => e.1 / 128 == line)) s

/-- Consecutive bytes from an address, with their addresses. -/
def addrBytes (a : Nat) : List Byte → List (Nat × Byte)
  | [] => []
  | b :: bs => (a, b) :: addrBytes (a + 1) bs

/-- A controller's or engine's write of consecutive bytes at home. -/
def State.homeStore (s : State) (w : Writer) (a : Nat) (bs : List Byte) : State := s.homeWrite w (addrBytes a bs)

/-- A 64-bit word written at a virtual address of partition p, if it translates (the controller's own writes). -/
def State.store64 (s : State) (w : Writer) (va : Word) (v : Word) : State :=
  match s.resolve w.p va 8 .write with
  | .ok pa => s.homeStore w pa (natBytes 8 v.toNat)
  | .error _ => s

/-- Bytes written at a virtual address of partition p, page by page where they translate. -/
def State.storeVa (s : State) (w : Writer) (va : Word) (bs : List Byte) : State :=
  s.homeWrite w ((addrBytes va.toNat bs).filterMap fun e =>
    match s.resolve w.p (BitVec.ofNat 64 e.1) 1 .write with
    | .ok pa => some (pa, e.2)
    | .error _ => none)

/-- The n bytes read at home from a virtual address of partition p; zero where nothing translates. -/
def State.loadVa (s : State) (p : Nat) (va : Word) (n : Nat) : List Byte :=
  (List.range n).map fun i =>
    match s.resolve p (va + BitVec.ofNat 64 i) 1 .read with
    | .ok pa => s.homeByte pa
    | .error _ => 0

/-- The 64-bit word at a virtual address, read at home. -/
def State.load64 (s : State) (p : Nat) (va : Word) : Word := BitVec.ofNat 64 (bytesNat (s.loadVa p va 8))

/-- Whether a scope's range covers an address for a core of partition p (R324): QUAD to PART what is homed in the
partition, PKG all but host pages, HOST and POD everything. -/
def State.inRange (s : State) (p scope pa : Nat) : Bool :=
  if scope ≤ 1 then false
  else if scope ≤ 4 then decide (pa < hostBase) && s.ownerPart p pa == p
  else if scope = 5 then decide (pa < hostBase)
  else true

/-- Requests added at the end of the line (R331: those of one context to one home keep their order). -/
def State.sendAs (s : State) (tag : Nat) (r : Req) : State :=
  { s with reqs := s.reqs ++ [{ r with id := s.nextReq, tag := tag }], nextReq := s.nextReq + 1 }
def State.send (s : State) (r : Req) : State := s.sendAs (s.tagOf r.g) r

/-- Publication: the core's unpublished bytes that `sel` picks become write requests of their writing contexts under the tags of their
stores, line by line (R329, R340). -/
def State.publish (s : State) (k : Nat) (sel : Nat → UByte → Bool) : State :=
  let c := s.core k
  let out : List (Nat × UByte) := c.unpub.filterMap fun e =>
    match e.2 with
    | some u => if sel e.1 u then some (e.1, u) else none
    | none => none
  let s := s.setCore k { c with unpub := Tab.keep (fun a u => match u with | some u => !sel a u | none => false) c.unpub }
  ((out.map fun e => (e.1 / 128, e.2.g, e.2.tag)).eraseDups).foldl (fun s lg =>
    let bs := (out.filter fun e => (e.1 / 128, e.2.g, e.2.tag) == lg).map fun e => (e.1, e.2.val)
    s.sendAs lg.2.2 { id := 0, g := lg.2.1, kind := .write, line := lg.1, words := wordMask lg.1 (bs.map (·.1)), data := bs }) s

/-- Whether a request is a write or an atomic that a release waits for (R325): an OWN store or atomic too, which is performed only
once its words are granted, so that what happens before the release is seen after it (R297, R310, R327). -/
def Req.isWrite (r : Req) : Bool := r.kind == .write || r.kind == .atom || (r.kind == .own && (r.atomic || !r.data.isEmpty))

/-- Whether a release by a core at a scope is complete (R325): nothing unpublished, nothing unacknowledged in range. -/
def State.released (s : State) (k scope : Nat) : Bool :=
  let p := s.partOf k
  decide (scope ≤ 1) ||
  ((s.core k).unpub.all fun e => !s.inRange p scope e.1) &&
  (s.reqs.all fun r => !(r.g / 4 == k && r.isWrite && s.inRange p scope (r.line * 128)))

/-- The blocking part of a release at stage 3: none when complete, else the state with the publication under way. -/
def State.releaseWait (s : State) (k scope : Nat) : Option State :=
  if s.released k scope then none else some (s.publish k fun a _ => s.inRange (s.partOf k) scope a)

/-- An acquire's discard of the core's SI copies within the scope's range (R325). -/
def State.acquire (s : State) (k scope : Nat) : State :=
  if scope ≤ 1 then s
  else
    let p := s.partOf k
    s.updCore k fun c => { c with siLines := Tab.keep (fun line _ => !s.inRange p scope (line * 128)) c.siLines }

/-- Outstanding global loads and atomics of a context, and OWN requests of its stores (R133, R333). -/
def State.outstanding (s : State) (g : Nat) : Nat :=
  (s.loads.filter fun l => l.g == g).length + (s.reqs.filter fun r => r.g == g && r.kind == .own && r.load.isNone).length

/-- Whether a request of core k that changes words concerns a byte and is not yet answered. -/
def State.writePending (s : State) (k a : Nat) : Bool :=
  s.reqs.any fun r => r.g / 4 == k && r.kind != .read && r.kind != .wiRead && r.line == a / 128 && inMask r.words a

/-- Whether a read that context g makes at a home now keeps its place behind what its core and it sent before (R323, R331): no change
of its core is under way on the line, and no request of its own at the home. -/
def State.homeClear (s : State) (g a : Nat) : Bool :=
  let p := s.partOf (g / 4)
  s.reqs.all fun r =>
    r.forwarded || !((r.g / 4 == g / 4 && r.kind != .read && r.kind != .wiRead && r.line == a / 128) ||
      (r.g == g && s.homeShroud p (r.line * 128) == s.homeShroud p a))

/-- The next request of a line: a request is answered only when no earlier one of its core concerns the line, nor of its
context the home (R317, R323, R331). -/
def State.reqReady (s : State) (r : Req) : Bool :=
  let h := s.homeShroud (s.partOf (r.g / 4)) (r.line * 128)
  (s.reqs.takeWhile fun q => q.id != r.id).all fun q =>
    !(q.g / 4 == r.g / 4 && q.line == r.line) &&
    !(q.g == r.g && s.homeShroud (s.partOf (q.g / 4)) (q.line * 128) == h)

/-- The byte a load has at an offset; zero while unknown. -/
def GLoad.byte (l : GLoad) (i : Nat) : Byte := match l.known.find? fun e => e.1 == i with | some e => e.2 | none => 0

/-- The value of a complete load. -/
def GLoad.value (l : GLoad) : Nat := bytesNat ((List.range l.size).map l.byte)

/-- A context returns its words of one line to home and its slot is freed (R318, R332). -/
def State.surrenderLine (s : State) (g line : Nat) : State :=
  let sh := s.homeShroud (s.partOf (g / 4)) (line * 128)
  let bs := (s.ctx g).ownedIn line 0xFFFFFFFF
  if bs = [] then s
  else
    let s := s.flushReads line (wordMask line (bs.map (·.1)))
    let s := (s.returned sh line g bs).updCtx g fun c => c.dropOwned line 0xFFFFFFFF
    s.updShroud sh fun h =>
      { h with dir := match Tab.get none h.dir line with
                 | none => h.dir
                 | some d =>
                   let sl := d.slots.filter fun t => t.g != g
                   Tab.set none h.dir line (if sl = [] ∧ d.sharers = 0 then none else some { d with slots := sl }) }

/-- Every registration of a context surrendered to home (R318). -/
def State.surrenderAll (s : State) (g : Nat) : State :=
  (((s.ctx g).owned.map fun e => e.1 / 128).eraseDups).foldl (fun s line => s.surrenderLine g line) s

/-- Whether a page flips its bias: accesses to it stall at home (R383). -/
def State.flipping (s : State) (line : Nat) : Bool :=
  decide (line * 128 < hbmTop) && ((s.part (s.shroud (line * 128 / 2 ^ 36)).partFirst).flips.any fun f => f.1 == line * 128 / 65536)

/-- Whether a page is in host bias (R382). -/
def State.onHostBias (s : State) (line : Nat) : Bool :=
  decide (line * 128 < hbmTop) && (s.part (s.shroud (line * 128 / 2 ^ 36)).partFirst).hostBias.contains (line * 128 / 65536)

/-- Whether the host cannot be reached over CXL.cache for a page of its own, or for one in host bias: the stream failed and has no new
keys yet (R374, R382). -/
def State.hostCut (s : State) (line : Nat) : Bool := s.memFailed && (decide (hostBase ≤ line * 128) || s.onHostBias line)

/-- The port of a pool address (R385): that of the decoder that covers it, by bit 12 where it interleaves the two. -/
def State.poolPort (s : State) (a : Nat) : Option Nat :=
  s.pools.findSome? fun e => e.2.bind fun d =>
    if d.base.toNat ≤ a ∧ a < d.base.toNat + d.size.toNat then some (if d.ctl = 2 then a / 4096 % 2 else d.ctl.toNat % 2) else none

/-- Whether no device answers for a pool line: no decoder covers it, or the link of its port is down (R385, R395). A line that L2
holds written needs none. -/
def State.poolCut (s : State) (p line : Nat) : Bool :=
  let a := line * 128
  decide (poolBase ≤ a) && decide (a < hostBase) && (Tab.get none (s.shroud (s.homeShroud p a)).l2 line).isNone &&
  (match s.poolPort (a - poolBase) with | some i => !s.poolUp.getLsbD i | none => true)

/-- Whether an access to a line waits at its home or beyond: while its page flips, or what answers it cannot be reached (R374, R383,
R385). -/
def State.lineStalls (s : State) (p line : Nat) : Bool := s.flipping line || s.hostCut line || s.poolCut p line

end Sys2Proof.Machine
end

