-- ==== Sys2Proof/Machine/Life.lean ====
section
/-! DEFINITION. The life of launches and units: launch records, completion objects, fault records, barrier rounds, the end of a unit by DONE or termination (R194, R209, R294, R295, R302, R305, R342). -/

namespace Sys2Proof.Machine

/-- Fields of a launch record (R210). -/
def recN (r : List Byte) (off n : Nat) : Nat := bytesNat ((r.drop off).take n)
def Launch.entry (l : Launch) : Nat := recN l.record 0 8
def Launch.param (l : Launch) : Nat := recN l.record 8 8
def Launch.nx (l : Launch) : Nat := recN l.record 16 4
def Launch.ny (l : Launch) : Nat := recN l.record 20 4
def Launch.nz (l : Launch) : Nat := recN l.record 24 4
def Launch.key (l : Launch) : Nat := recN l.record 28 4
def Launch.scope (l : Launch) : Nat := recN l.record 32 1
def Launch.gang (l : Launch) : Nat := recN l.record 33 1
def Launch.span (l : Launch) : Nat := recN l.record 34 1
def Launch.ndeps (l : Launch) : Nat := recN l.record 35 1
def Launch.coreMask (l : Launch) : Nat := recN l.record 36 4
def Launch.dep (l : Launch) (i : Nat) : Word := BitVec.ofNat 64 (recN l.record (40 + 8 * i) 8)
def Launch.need (l : Launch) (i : Nat) : Nat := recN l.record (64 + i) 1
def Launch.take (l : Launch) : Bool := recN l.record 67 1 % 2 == 1
def Launch.co (l : Launch) : Word := BitVec.ofNat 64 (recN l.record 72 8)
def Launch.segBase (l : Launch) : Word := BitVec.ofNat 64 (recN l.record 96 8)
def Launch.textBase (l : Launch) : Word := BitVec.ofNat 64 (recN l.record 104 8)
def Launch.segCount (l : Launch) : Word := BitVec.ofNat 64 (recN l.record 112 4)

/-- A write by the spindle or a controller of partition p: launch id 0 (R340). -/
def ctl (p : Nat) : Writer := { tag := 0, p := p }

/-- Word 0 of a launch's completion object (R194). -/
def Launch.word0 (l : Launch) : Word :=
  let st := match l.stage, l.outcome with
    | .final, some .done => 2
    | .final, some .refused => 3
    | .final, some .faulted => 4
    | .final, none => 2
    | .running, _ => 1
    | .held, _ | .eligible, _ => 0
  BitVec.ofNat 64 (l.outstanding * 65536 + l.code * 256 + l.trig.toNat * 32 + l.verdict * 8 + st)

/-- State code of a completion object in memory, its trig bit and verdict (R194). -/
def coState (w : Word) : Nat := field w.toNat 0 3
def coTrig (w : Word) : Bool := field w.toNat 5 1 == 1
def coVerdict (w : Word) : Nat := field w.toNat 3 2
def coFinal (w : Word) : Bool := coState w == 2 || coState w == 3 || coState w == 4
/-- An object that ended refused, faulted or tainted (R302). -/
def coBad (w : Word) : Bool := coFinal w && (coState w != 2 || coVerdict w == 2)

/-- The owed dependences of a launch that are final are noted once for all: what becomes of their objects after that is nothing to
the launch (R300, R302). -/
def Launch.noteOwed (l : Launch) (word : Nat → Word) : Launch :=
  { l with owed := l.owed.filter fun d => !coFinal (word d), owedBad := l.owedBad || l.owed.any fun d => coBad (word d) }
def State.noteOwed (s : State) : State :=
  if s.launches.all fun l => l.owed == [] then s
  else { s with launches := s.launches.map fun l => l.noteOwed fun d => s.load64 l.p (l.dep d) }

/-- The spindle writes a launch's completion object: word 0, and once final the finish time and fault address. -/
def State.coWrite (s : State) (i : Nat) : State :=
  match s.launches[i]? with
  | none => s
  | some l =>
    if l.stage = .final then
      (((s.store64 (ctl l.p) (l.co + 16) s.timebase).store64 (ctl l.p) (l.co + 24) l.fault).store64 (ctl l.p) l.co l.word0).noteOwed
    else s.store64 (ctl l.p) l.co l.word0

/-- Whether a launch is not yet final: what its units still do counts (R294). -/
def State.live (s : State) (i : Nat) : Bool := (s.launches[i]?).any fun l => l.stage != .final

/-- What a fault record holds beside its time (R342). -/
structure FaultRec where
  code : Nat
  source : Nat
  context : Nat := 255
  trap : Nat := 0
  flags : Nat := 0
  launch : Nat := 0
  pc : Word := 0
  addr : Word := 0
  progress : Nat := 0
  shroud : Nat := 0
  way : Nat := 0
  set : Nat := 0
deriving DecidableEq, Repr

/-- The 64 bytes of a fault record (R342). -/
def FaultRec.bytes (f : FaultRec) (time : Word) : List Byte :=
  natBytes 1 f.code ++ natBytes 1 f.source ++ natBytes 1 f.context ++ natBytes 1 f.trap ++ natBytes 4 f.flags ++
  natBytes 8 f.launch ++ natBytes 8 f.pc.toNat ++ natBytes 8 f.addr.toNat ++ natBytes 8 time.toNat ++
  natBytes 8 f.progress ++ natBytes 1 f.shroud ++ natBytes 1 f.way ++ natBytes 2 f.set ++ natBytes 12 0

/-- A fault record goes into the partition's ring (R342, R379 command 0x06); its address, or 0 without an area. -/
def State.faultRecord (s : State) (p : Nat) (f : FaultRec) : State × Word :=
  let x := s.part p
  if x.faultCount = 0 then (s, 0)
  else
    let va := x.faultBase + BitVec.ofNat 64 (64 * (x.faultWritten % x.faultCount))
    let s := s.storeVa (ctl p) va (f.bytes s.timebase)
    let s := if x.faultCtr = 0 then s else s.store64 (ctl p) x.faultCtr (s.load64 p x.faultCtr + 1)
    (s.updPart p fun x => { x with faultWritten := x.faultWritten + 1 }, va)

/-- R368: a launch of partition p ended tainted, or p was reset: windows of others it wrote are marked. -/
def State.markTaint (s : State) (p : Nat) : State :=
  (List.range 8).foldl (fun s q =>
    if q = p then s
    else s.updPart q fun x =>
      { x with windows := x.windows.map fun e =>
          (e.1, e.2.map fun w => if w.written.getLsbD p then { w with taint := w.taint ||| (1#8 <<< p) } else w) }) s

/-- LAUNCH_DONE (R294, R302): with no unit outstanding and every owed dependence final, the launch becomes final, its
object is written, its reservations return (R279). -/
def State.settle (s : State) (i : Nat) : State :=
  let s := s.noteOwed
  match s.launches[i]? with
  | none => s
  | some l =>
    if l.stage = .running ∧ l.outstanding = 0 ∧ l.owed = [] then
      let v := if l.owedBad then max l.verdict 2 else l.verdict
      let s := s.updLaunch i fun l => { l with stage := .final, verdict := v, outcome := some (l.outcome.getD .done) }
      let s := s.updPart l.p fun x =>
        { x with stores := x.stores.map fun e => (e.1, e.2.map fun t => { t with rsv := t.rsv.filter fun r => r.1 != i }) }
      let s := s.coWrite i
      if v = 2 then s.markTaint l.p else s
    else s

/-- TRIG_BIT_SET (R305): one more unit has triggered or is DONE; the bit is set when all have. -/
def State.countTrig (s : State) (i : Nat) : State :=
  if !s.live i then s
  else
    (s.updLaunch i fun l => { l with triggered := l.triggered + 1, trig := l.trig || decide (l.total ≤ l.triggered + 1) }).coWrite i

/-- One unit of a launch is DONE: it counts as triggered if it had not, and outstanding falls (R86, R294, R305). -/
def State.unitDone (s : State) (u : Unit) : State :=
  if !s.live u.launch then s
  else
    let s := if u.triggered then s else s.countTrig u.launch
    let s := s.updLaunch u.launch fun l => { l with outstanding := l.outstanding - 1 }
    (s.coWrite u.launch).settle u.launch

/-- One unit of a launch is terminated: undispatched units are dropped, the first code and record stand (R294, R295). -/
def State.unitKilled (s : State) (u : Unit) (code : Nat) (f : FaultRec) : State :=
  match s.launches[u.launch]? with
  | none => s
  | some l =>
    if l.stage = .final then s
    else
      let first := l.outcome.isNone
      let (s, va) := if first then s.faultRecord l.p { f with launch := l.id } else (s, l.fault)
      let s := s.updLaunch u.launch fun l =>
        { l with outstanding := l.outstanding - 1 - (l.total - l.next), next := l.total, outcome := some .faulted
                 code := if first then code else l.code, fault := va }
      (s.coWrite u.launch).settle u.launch

/-- The participants of a gang round at CORE or QUAD (R209): contexts of the issuer's gang on its core or quad. -/
def State.gangOn (s : State) (g scope : Nat) : List Nat :=
  match (s.ctx g).unit with
  | none => []
  | some u =>
    (List.range 128).filter fun h =>
      (if scope = 1 then h / 4 == g / 4 else h / 16 == g / 16) &&
      (match (s.ctx h).unit with | some w => w.launch == u.launch && w.gang == u.gang | none => false)

/-- The pre-empted units of a gang that were on core k, or on its quad: they stay in the set (R209). -/
def State.gangSaved (s : State) (u : Unit) (k scope : Nat) : List Unit :=
  match s.launches[u.launch]? with
  | none => []
  | some l => (l.saved.filter fun v => v.unit.gang == u.gang && (if scope = 1 then v.core == k else v.core / 4 == k / 4)).map fun v => v.unit

/-- Whether a pre-empted unit of the gang's set is away. -/
def State.gangAway (s : State) (u : Unit) (k scope : Nat) : Bool := s.gangSaved u k scope != []

/-- BARRIER_ROUND_COMPLETE at CORE and QUAD (R209): when every participant has arrived, all are released. -/
def State.gangRound (s : State) (g scope id : Nat) : State :=
  match (s.ctx g).unit with
  | none => s
  | some u =>
    let ps := s.gangOn g scope
    if !s.gangAway u (g / 4) scope && ps.all fun h => (s.ctx h).arrived == some (scope, id) && !(s.ctx h).released then
      ps.foldl (fun s h => s.updCtx h fun c => { c with released := true }) s
    else s

/-- After a unit of gang u left core k: every round its gang waits in is tested again (R209). -/
def State.gangLeft (s : State) (u : Unit) (k : Nat) : State :=
  (List.range 128).foldl (fun s h =>
    match (s.ctx h).unit, (s.ctx h).arrived with
    | some w, some (scope, id) =>
      if w.launch = u.launch ∧ w.gang = u.gang ∧ scope ≤ 2 ∧ h / 16 = k / 4 then s.gangRound h scope id else s
    | _, _ => s) s

/-- Tiles of a context released (R86). -/
def State.freeTiles (s : State) (k c : Nat) : State :=
  s.updCore k fun x => { x with tOwner := Tab.keep (fun _ o => o != some c) x.tOwner }

/-- A pre-empted unit of a launch whose banks stayed on a core (R313). -/
def State.pinnedOn (s : State) (l k : Nat) : Bool :=
  match s.launches[l]? with
  | none => false
  | some x => x.saved.any fun v => v.pinned && v.core == k

/-- Banks of a launch released on a core once no unit of it runs there (R86) and none is to resume there (R313). -/
def State.freeBanks (s : State) (k l : Nat) : State :=
  if ((List.range 4).any fun c => (s.ctx (4 * k + c)).launch == some l) || s.pinnedOn l k then s
  else s.updCore k fun x => { x with banks := Tab.keep (fun _ o => match o with | some (m, _) => m != l | none => true) x.banks }

/-- A context as its unit leaves it: free, keeping its debugger, its counters and the record address of its partition. -/
def Ctx.free (c : Ctx) : Ctx :=
  { Ctx.reset with
    regs := { Regs.reset with trapRec := c.regs.trapRec, step := c.regs.step }
    attached := c.attached, perfSteps := c.perfSteps, perfIssue := c.perfIssue, perfStall := c.perfStall, perfEng := c.perfEng }

/-- Appends of a unit that leaves its context go on without one: they are filed, and no later unit is told of them (R276). -/
def State.orphan (s : State) (g : Nat) : State :=
  let cut (c : EngCmd) : EngCmd := if c.op = 16 ∧ c.g = g then { c with g := 128 } else c
  let s := s.updCore (g / 4) fun x =>
    { x with engq := x.engq.map cut, journal := x.journal.map fun (e : JEntry) => if e.g = g then { e with g := 128 } else e }
  { s with threads := s.threads.map fun (t : Thread) => { t with cmd := cut t.cmd } }

/-- The context gives up issue and its place: no loads awaited, no entries left, tiles and banks released (R86, R225). An arrival of a
terminated unit at a barrier of DIE, PART or POD stays counted, as it has arrived (R209; log entry 91). -/
def State.leave (s : State) (g : Nat) : State :=
  let k := g / 4
  let c := g % 4
  match (s.ctx g).unit with
  | none => s
  | some u =>
    let s := (s.surrenderAll g).orphan g
    let s := { s with loads := s.loads.filter fun l => l.g != g, reqs := s.reqs.filter fun (r : Req) => r.g != g || (r.isWrite && r.kind != ReqKind.own) }
    let s := s.updCtx g Ctx.free
    let s := s.freeTiles k c
    let s := s.updCore k fun x =>
      { x with halyard := x.halyard.filter fun e => e.c != c
               holder := if x.holder = some c then none else x.holder
               lastHolder := if x.holder = some c then c else x.lastHolder
               passTo := if x.passTo = some c then none else x.passTo
               frozen := if x.holder = some c then 0 else x.frozen
               thaw := if x.holder = some c then false else x.thaw }
    let s := s.freeBanks k u.launch
    s.gangLeft u k

/-- The end of a unit by DONE, its release complete (R86): taken units first (R212), then its own. -/
def State.finishUnit (s : State) (g : Nat) : State :=
  match (s.ctx g).unit with
  | none => s
  | some u =>
    let s := (s.ctx g).taken.foldl (fun s t => s.unitDone t) s
    (s.leave g).unitDone u

/-- A scrub of every store of a partition is due (R275). -/
def State.scrubsDue (s : State) (p : Nat) : State :=
  s.updPart p fun x => { x with scrubs := (x.stores.filter fun e => e.2.isSome).map (·.1) }

/-- A context stops for good (R88, R295, R329): its unpublished words are discarded, its registrations surrendered, its taken units end
as terminated units (R212), a scrub is due (R275). -/
def State.stopUnit (s : State) (g : Nat) (code : Nat) (f : FaultRec) : State :=
  if (s.ctx g).unit.isNone then s
  else
    let tk := (s.ctx g).taken
    let f := { f with context := g, pc := if f.pc = 0 then (s.ctx g).regs.pc else f.pc }
    let s := s.updCore (g / 4) fun x =>
      { x with unpub := Tab.keep (fun _ b => match b with | some b => b.g != g | none => false) x.unpub }
    let s := s.leave g
    (tk.foldl (fun s t => s.unitKilled t code f) s).scrubsDue (s.partOf (g / 4))

/-- Termination of a context: its own unit ends too. -/
def State.terminate (s : State) (g : Nat) (code : Nat) (f : FaultRec) : State :=
  match (s.ctx g).unit with
  | none => s
  | some u =>
    (s.stopUnit g code f).unitKilled u code { f with context := g, pc := if f.pc = 0 then (s.ctx g).regs.pc else f.pc }

/-- The final state of an engine command in its completion object (R194, R195): state, code, progress, finish, fault. -/
def State.compWrite (s : State) (w : Writer) (co : Option Word) (state code progress : Nat) (fault : Word) : State :=
  match co with
  | none => s
  | some co =>
    let s := s.store64 w (co + 8) (BitVec.ofNat 64 progress)
    let s := s.store64 w (co + 16) s.timebase
    let s := s.store64 w (co + 24) fault
    (s.store64 w co (BitVec.ofNat 64 (code * 256 + state))).noteOwed

/-- Commands of a terminated launch still in an engine queue are dropped: faulted, code killed (R197). -/
def State.dropQueued (s : State) (i : Nat) : State :=
  (List.range 32).foldl (fun s k =>
    let gone := (s.core k).engq.filter fun c => c.launch == some i
    if gone = [] then s
    else
      let s := s.updCore k fun x => { x with engq := x.engq.filter fun c => c.launch != some i }
      gone.foldl (fun s c => s.compWrite { tag := i + 1, p := s.partOf k } c.comp 4 11 0 0) s) s

/-- The units of a launch that servers hold by TAKE stop with it: they are no longer theirs (R212, R295; log entry 78). -/
def State.untake (s : State) (i : Nat) : State :=
  let cut (c : Ctx) : Ctx := { c with taken := c.taken.filter fun t => t.launch != i }
  let s := (List.range 128).foldl (fun s g => if (s.ctx g).taken.any fun t => t.launch == i then s.updCtx g cut else s) s
  if s.launches.all fun l => l.saved == [] then s
  else { s with launches := s.launches.map fun l => { l with saved := l.saved.map fun v => { v with ctx := cut v.ctx } } }

/-- Where the first unit of a launch that stops stood, one of its own or one that a server holds by TAKE: its context and bundle address;
a saved unit's are those it was saved with. -/
def State.firstStopped (s : State) (l : Launch) (i : Nat) : Option (Nat × Word) :=
  let holds (c : Ctx) : Bool := c.launch == some i || c.taken.any fun u => u.launch == i
  match (List.range 128).find? fun g => holds (s.ctx g) with
  | some g => some (g, (s.ctx g).regs.pc)
  | none =>
    ((s.launches.flatMap fun m => m.saved).find? fun v => (v.unit.launch == i && l.saved.contains v) || holds v.ctx).map fun v =>
      (4 * v.core + v.slot, v.ctx.regs.pc)

/-- Every unit of a launch stops, running, saved and taken; undispatched units are dropped (R184, R295, R341). A fault record names
the context it comes with, else the first unit stopped (R342). Its completion object is still to be written: the launch stands as
running, with one unit more than it has. -/
def State.haltLaunch (s : State) (i code verdict : Nat) (f : FaultRec) : State :=
  match s.launches[i]? with
  | none => s
  | some l =>
    if l.stage = .final then s
    else
      let run := (List.range 128).filter fun g => (s.ctx g).launch == some i
      let first := l.outcome.isNone
      let f := if f.context ≠ 255 then { f with pc := (s.ctx f.context).regs.pc } else
        match s.firstStopped l i with
        | some (g, pc) => { f with context := g, pc := pc }
        | none => f
      let (s, va) := if first then s.faultRecord l.p { f with launch := l.id } else (s, l.fault)
      let s := s.updLaunch i fun l =>
        { l with outcome := some .faulted, code := if first then code else l.code, fault := va
                 verdict := max l.verdict verdict, saved := [], next := l.total
                 outstanding := run.length + 1, stage := .running }
      let s := (s.untake i)
      let s := run.foldl (fun s g => s.stopUnit g code f) s
      (s.dropQueued i).updLaunch i fun l => { l with outstanding := 1 }

/-- A halted launch is final, and its completion object written (R294, R341). -/
def State.closeLaunch (s : State) (i : Nat) : State :=
  if s.live i then ((s.updLaunch i fun l => { l with outstanding := 0 }).coWrite i).settle i else s

/-- A launch ends with a fault. -/
def State.endLaunch (s : State) (i code verdict : Nat) (f : FaultRec) : State := (s.haltLaunch i code verdict f).closeLaunch i

/-- Whether a partition is open and its gates pass (R361). -/
def State.partOpen (s : State) (p : Nat) : Bool := (s.shroud p).state == .ready && (s.shroud p).partFirst == p

/-- Whether a function's registers can be reached: the physical one's once bring-up has ended, a partition's while the partition is open
(R372, R390, R395), and none while the CXL.io stream drops its packets (R374). -/
def State.mboxExists (s : State) (mb : Mbox) : Bool :=
  !s.ioFailed &&
  match mb with
  | .pf => s.powered && s.boot == 0xFF
  | .vf p => s.partOpen p.toNat

/-- The notice ring of a mailbox (R380). -/
def State.ring (s : State) : Mbox → Notices
  | .pf => s.notes
  | .vf p => (s.part p.toNat).notes
def State.setRing (s : State) (mb : Mbox) (n : Notices) : State :=
  match mb with
  | .pf => { s with notes := n }
  | .vf p => s.updPart p.toNat fun x => { x with notes := n }

/-- One entry of a ring written to host memory at the tail (R380); while the CXL.io stream drops its packets, it is lost (R374; log
entry 94). -/
def State.putNotice (s : State) (mb : Mbox) (e : List Byte) : State :=
  let n := s.ring mb
  let i := n.tail.toNat % 2 ^ (field n.ctl.toNat 0 4 + 6)
  let s := if s.ioFailed then s else s.homeStore (ctl 0) (hostBase + n.base.toNat + 32 * i) e
  s.setRing mb { n with tail := n.tail + 1 }

/-- MAILBOX_DONE_NOTICE and its kin (R381): a notice is written, or held while the ring is full; none when disabled. The manual
gives a detail for kind 6 alone, and no shroud for the notices of the whole package (`sub` 256): those are free (log entry 11). -/
def State.notice (s : State) (mb : Mbox) (kind sub detail arg : Nat) : State :=
  let n := s.ring mb
  let free := (Config.freeWord s.freeCtr).toNat
  let e := natBytes 1 kind ++ natBytes 1 (if sub = 256 then field free 16 8 else sub) ++
    natBytes 2 (if kind = 6 then detail else field free 0 16) ++ natBytes 4 0 ++ natBytes 8 s.timebase.toNat ++ natBytes 16 arg
  if field n.ctl.toNat 8 1 = 0 then s
  else if n.held ≠ [] ∨ (n.tail - n.head).toNat = 2 ^ (field n.ctl.toNat 0 4 + 6) then s.tick.setRing mb { n with held := n.held ++ [e] }
  else s.tick.putNotice mb e

/-- The counts of HEALTH that the state gives without a register of their own (R359). -/
def State.outCount (s : State) : Nat := ((List.range 32).filter fun k => (s.core k).health == .out).length
def State.reefedCount (s : State) : Nat := ((List.range 32).filter fun k => (s.core k).health == .reefed).length
def State.qwayCount (s : State) : Nat := ((List.range 8).map fun k => (s.shroud k).qways.length).foldl (· + ·) 0

/-- REPLACE_REQUEST (R359, R360): set once a threshold that is not zero is reached, and then kept; a notice of kind 2 tells it (R381). -/
def State.healthCheck (s : State) : State :=
  let l := s.limit.toNat
  let hit := fun t v => decide (0 < t) && decide (t ≤ v)
  let r := hit (field l 38 6) s.outCount || hit (field l 32 6) s.reefedCount || hit (field l 22 10) s.qwayCount ||
    hit (field l 8 14) s.healthReg.retired
  if r && !s.healthReg.replace then
    ({ s with healthReg := { s.healthReg with replace := true } }).notice .pf 2 256 0 0
  else s

end Sys2Proof.Machine
end

