-- ==== Sys2Proof/Machine/Ops.lean ====
section
/-! DEFINITION. The shared operations of a context: control registers, results in flight and their landing, local accesses, the rewind of a segment, TAKING A TRAP and the return from one (R13, R14, R20, R21, R72 to R76, R88, R130, R343 to R354). -/

namespace Sys2Proof.Machine

/-- CRC-32C over bytes (R355; log entry 18): the register before the final inversion. -/
def crcBit (c : BitVec 32) : BitVec 32 := if c.getLsbD 0 then (c >>> 1) ^^^ 0x82F63B78 else c >>> 1
def crcByte (c : BitVec 32) (b : Byte) : BitVec 32 :=
  crcBit (crcBit (crcBit (crcBit (crcBit (crcBit (crcBit (crcBit (c ^^^ b.setWidth 32))))))))
def crcBytes (c : BitVec 32) (bs : List Byte) : BitVec 32 := bs.foldl crcByte c

/-- Trap code numbers (R343). -/
def TrapCode.num : TrapCode → Nat
  | .illegalOp => 1 | .illegalOperand => 2 | .illegalBundle => 3 | .latchStale => 4 | .align => 5 | .page => 6 | .access => 7
  | .window => 8 | .kvFault => 9 | .segOverflow => 10 | .ue => 11 | .bkpt => 12 | .step => 13 | .soft => 14

/-- The R196 code of a KV_FAULT reason (R343). -/
def kvCode : Nat → Nat
  | 1 => 5 | 2 => 6 | 3 => 14 | 4 => 7 | 5 => 15 | 6 => 16 | 7 => 17 | _ => 0

/-- The R196 code a trap leaves in a fault record (R343, last column). -/
def Trap.code196 (t : Trap) : Nat :=
  match t.code with
  | .page => 1
  | .access => 2
  | .window => 3
  | .ue => 4
  | .kvFault => kvCode t.reason
  | _ => 0

/-- ctx.id (R74). -/
def State.ctxId (s : State) (g : Nat) : Word :=
  let p := s.partOf (g / 4)
  BitVec.ofNat 64 (p * 4096 + (s.shroud p).partLog2 * 1024 + g / 16 * 128 + g)

/-- trap.state (R75). -/
def Regs.trapState (r : Regs) : Word :=
  BitVec.ofNat 64 (r.blocked.toNat * 8 + r.step.toNat * 4 + r.inSeg.toNat * 2 + r.inHandler.toNat)

/-- Remaining iterations of loop level i, outer first (R73, 0x050 and 0x051). -/
def Regs.loopLeft (r : Regs) (i : Nat) : Word := match r.loops[i]? with | some l => l.left | none => 0

/-- MFC: the value of a control register (R73). -/
def State.readCr (s : State) (g n : Nat) : Word :=
  let r := (s.ctx g).regs
  match n with
  | 0x000 => s.ctxId g
  | 0x010 => r.trapVec
  | 0x011 => r.trapEpc
  | 0x012 => r.trapRec
  | 0x013 => r.trapState
  | 0x020 => r.fpstat.setWidth 64
  | 0x021 => r.sse
  | 0x022 => r.cnt
  | 0x030 => BitVec.ofNat 64 (s.core (g / 4)).split
  | 0x040 => r.segBase
  | 0x041 => r.segCount
  | 0x042 => r.segText
  | 0x050 => r.loopLeft 0
  | 0x051 => r.loopLeft 1
  | 0x052 => BitVec.ofNat 64 r.loops.length
  | 0x060 => r.pred.setWidth 64
  | 0x061 => BitVec.ofNat 64 (r.getX 0 + 256 * r.getX 1 + 65536 * r.getX 2 + 16777216 * r.getX 3)
  | 0x070 => Config.chipId.setWidth 64
  | n => Tab.get 0 r.wu n

/-- Control registers MTC may write (R73: access RW). -/
def crWritable (n : Nat) : Bool :=
  [0x010, 0x011, 0x020, 0x021, 0x022, 0x030, 0x040, 0x041, 0x042, 0x060, 0x061].contains n

/-- A change of ls.split (R76, R357 LS_SPLIT_BANK_MOVE): unpublished lines stay unpublished, banks that enter the scratchpad read as
zero, the banks that change count as moving. When banks leave L1 its clean lines are dropped: in which bank a line lies the manual
does not say, so all are (log entry 80). -/
def State.moveSplit (s : State) (k new : Nat) : State :=
  s.updCore k fun c =>
    let lo := min c.split new
    let hi := max c.split new
    if lo = hi then c
    else
      { c with split := new
               ram := Tab.keep (fun a _ => !(decide (lo * 524288 ≤ a) && decide (a < hi * 524288))) c.ram
               siLines := if lo = c.split then [] else c.siLines, wiLines := if lo = c.split then [] else c.wiLines
               moving := BitVec.ofNat 32 ((2 ^ (4 * hi) - 1) - (2 ^ (4 * lo) - 1)) }

/-- An index base as a register keeps it, in 0–191 (R17). Beyond that only a handler's record can give one, and which base it is then
the manual does not say: a free one (log entry 86). -/
def xBase (v : Nat) : BitVec 8 :=
  BitVec.ofNat 8 (if v % 256 < 192 then v % 256 else (Config.stray (BitVec.ofNat 64 v)).toNat % 192)

/-- ls.split as its landing finds it, 0 to 8 (R76); beyond that only a handler's record can give it, and it is free (log entry 86). -/
def splitOf (v : Word) : Nat := if v.toNat ≤ 8 then v.toNat else (Config.stray v).toNat % 9

/-- The landing of an MTC (R72, R73, R51 for the W1C flags). -/
def State.writeCr (s : State) (g n : Nat) (v : Word) : State :=
  if n = 0x030 then s.moveSplit (g / 4) (splitOf v)
  else s.updCtx g fun c => c.updRegs fun r =>
    match n with
    | 0x010 => { r with trapVec := v }
    | 0x011 => { r with trapEpc := v }
    | 0x020 => { r with fpstat := r.fpstat &&& ~~~(v.setWidth 6) }
    | 0x021 => { r with sse := v }
    | 0x022 => { r with cnt := v }
    | 0x040 => { r with segBase := v }
    | 0x041 => { r with segCount := v }
    | 0x042 => { r with segText := v }
    | 0x060 => { r with pred := (v.setWidth 16 &&& 0xFFFC) ||| 1 }
    | 0x061 => { r with x := (List.range 4).foldl (fun x i => Tab.set 0 x i (xBase (v.toNat / 2 ^ (8 * i)))) r.x }
    | _ => r

/-- The newest bypass latch of a slot (R107, R135, R149): l0 for VA, l2 for VB, l4 for the LSU, l6 for XF. -/
def latchOf : Nat → Nat
  | 2 => 0 | 3 => 2 | 4 => 4 | _ => 6

/-- A slot's latches shift and take a result (R107). -/
def Regs.shiftLatch (r : Regs) (slot : Nat) (v : Row) : Regs :=
  let i := latchOf slot
  let r := match r.getLatch i with
    | some old => r.setLatch (i + 1) old
    | none => { r with latch := Tab.set none r.latch (i + 1) none }
  r.setLatch i v

/-- Formats of a pending statistics update, in the value field (log entry 9): target, source, XQNT mark, .inf. -/
def statCode (tgt from_ : XFmt) (xq inf : Bool) (code : XFmt → Nat) : Word :=
  BitVec.ofNat 64 (code tgt + 16 * code from_ + 256 * xq.toNat + 512 * inf.toNat)

/-- Transform formats by code, for the statistics update (R30). -/
def xfmtOf (n : Nat) : XFmt :=
  [XFmt.fp32, .bf16, .fp16, .e4m3, .e5m2, .e2m1, .mxfp4, .sx7, .sx4, .sx2, .i32, .i16, .i8, .n32, .n16, .n8].getD n .n8
def xfmtNum : XFmt → Nat
  | .fp32 => 0 | .bf16 => 1 | .fp16 => 2 | .e4m3 => 3 | .e5m2 => 4 | .e2m1 => 5 | .mxfp4 => 6 | .sx7 => 7 | .sx4 => 8
  | .sx2 => 9 | .i32 => 10 | .i16 => 11 | .i8 => 12 | .n32 => 13 | .n16 => 14 | .n8 => 15

/-- The statistics pair after a pending update lands (R59, R346 kind 9). -/
def statLand (p : Word × Word) (f : Flight) : Word × Word :=
  let n := f.value.toNat
  let tgt := xfmtOf (n % 16)
  let src := xfmtOf (field n 4 4)
  if field n 8 1 = 1 then
    let sf := if src == .bf16 then BF16 else FP32
    statRow p ((lanes f.row sf.width).map sf.decode) (xqntRow tgt (src == .bf16) f.row2 f.row).2.2
  else
    let pr := xcvtPairs src tgt (field n 9 1 == 1) f.row
    statRow p pr.1 pr.2

/-- Bytes of a value written back for the result signature of a segment (R356); a result under nwb (kind 2) is written back
nowhere. -/
def Flight.sigBytes (f : Flight) : List Byte :=
  match f.kind with
  | 1 | 8 => rowBytes f.row
  | 3 | 6 | 7 => natBytes 8 f.value.toNat
  | 4 | 5 => natBytes 1 f.value.toNat
  | _ => []

/-- What a segment's result signature takes (R356). -/
def Ctx.signRes (c : Ctx) (bs : List Byte) : Ctx :=
  { c with seg := c.seg.map fun q => { q with res := crcBytes q.res bs } }

/-- What a fresh landing does beside a row write: flags, latches, the registers of kinds 3 to 8 (R14, R51, R107). -/
def Ctx.landRegs (c : Ctx) (f : Flight) : Ctx :=
  let c := c.signRes f.sigBytes
  let c := c.updRegs fun r => { r with fpstat := r.fpstat ||| f.flags }
  match f.kind with
  | 1 | 2 => c.updRegs fun r => r.shiftLatch f.slot f.row
  | 3 => (c.updRegs fun r => r.setS f.dest f.value).clearMark (sKey f.dest)
  | 4 => c.updRegs fun r => r.setPair f.dest (f.value.getLsbD 0)
  | 5 => c.updRegs fun r => r.setX f.dest (xBase f.value.toNat).toNat
  | 6 => c.updRegs fun r => r.setBt f.dest f.value
  | 8 => c.updRegs fun r => r.setSc f.dest f.row
  | _ => c

/-- The six banks of the vector register space (R17). -/
def bankOf (row : Nat) : Nat := row % 6

/-- What a step of landings has done so far: the state, the banks whose write port is taken, and the results that slip, with
their places in issue order. -/
abbrev Landing := State × List Nat × List (Flight × Nat)

/-- One due result lands (R21): a row write takes its bank's port, or slips to the next step when the port is taken. -/
def landOne (a : Landing) (g : Nat) (fi : Flight × Nat) : Landing :=
  let s := a.1
  let f := fi.1
  if f.kind = 7 ∧ f.dest ≠ 0x020 ∧ f.dest ≠ 0x021 ∧ f.dest ≠ 0x022 then
    ((s.updCtx g fun c => c.signRes f.sigBytes).writeCr g f.dest f.value, a.2)
  else if f.kind = 7 then (s.updCtx g fun c => c.signRes f.sigBytes, a.2)
  else if f.kind = 9 then a
  else
    -- XSTAT samples the pair at its due step (R155)
    let f1 := if f.kind = 11 then
        { f with kind := 1, row := BitVec.ofNat 2048 ((s.ctx g).regs.sse.toNat + 2 ^ 64 * (s.ctx g).regs.cnt.toNat) } else f
    let s := if f.kind = 11 then
        s.updCtx g fun c => (c.signRes f1.sigBytes).updRegs fun r => if f.value.getLsbD 0 then { r with sse := 0, cnt := 0 } else r
      else if f.slipped then s
      else s.updCtx g fun c => c.landRegs f
    if f1.kind = 1 then
      if a.2.1.contains (bankOf f.dest) then
        (s.updCore (g / 4) fun x => { x with perfSlip := x.perfSlip + 1 },
         a.2.1, ({ f1 with slipped := true, flags := 0 }, fi.2) :: a.2.2)
      else (s.updCtx g fun c => (c.setV f.dest f1.row).clearMark (rowKey f.dest), bankOf f.dest :: a.2.1, a.2.2)
    else (s, a.2)

/-- Control writes of the flags and statistics and the pending statistics updates, before all else of their step (R51, R155). -/
def landFirst (s : State) (g : Nat) (f : Flight) : State :=
  if f.kind = 7 ∧ (f.dest = 0x020 ∨ f.dest = 0x021 ∨ f.dest = 0x022) then
    s.writeCr g f.dest f.value
  else if f.kind = 9 then
    s.updCtx g fun c => c.updRegs fun r =>
      let p := statLand (r.sse, r.cnt) f
      { r with sse := p.1, cnt := p.2 }
  else s

/-- What of the results in flight stays in flight after the landings of a step, in issue order: what was not due, and the slipped,
due again after this step (R21, R346). -/
def stillFlying (fl : List Flight) (slips : List (Flight × Nat)) : List Flight :=
  fl.zipIdx.filterMap fun fi =>
    if fi.1.remain != 0 then some fi.1
    else (slips.find? fun q => q.2 == fi.2).map fun q => { q.1 with remain := 1 }

/-- The write ports of banks taken in this clock (R21, R224). -/
def State.takePorts (s : State) (g : Nat) (banks : List Nat) : State :=
  if banks = [] then s else s.updCore (g / 4) fun x => { x with ports := banks.map (fun b => g % 4 * 6 + b) ++ x.ports }

/-- The landings of a step (R14, R21): slipped writes take their ports first, then the others, each in issue order (log entry
73). -/
def landings (s : State) (g : Nat) : Landing :=
  let due := (s.ctx g).flights.zipIdx.filter fun f => f.1.remain == 0
  let s := due.foldl (fun s f => landFirst s g f.1) s
  let order := (due.filter fun f => f.1.slipped) ++ due.filter fun f => !f.1.slipped
  order.foldl (fun a f => landOne a g f) (s, [], [])

/-- The due results of a step land. -/
def landDue (s : State) (g : Nat) : State :=
  let fl := (s.ctx g).flights
  if (fl.filter fun f => f.remain == 0) = [] then s
  else
    let r := landings s g
    r.1.updCtx g fun c => { c with flights := stillFlying fl r.2.2 }

/-- The banks whose write ports the due results of a step take (R21). -/
def portsDue (s : State) (g : Nat) : List Nat :=
  if ((s.ctx g).flights.filter fun f => f.remain == 0) = [] then [] else (landings s g).2.1

/-- The step's end: what is in flight comes one step nearer (R223). -/
def Ctx.advance (c : Ctx) : Ctx :=
  { c with flights := c.flights.map fun f => { f with remain := f.remain - 1 }, perfSteps := c.perfSteps + 1 }

/-- Whether a context's fixed-latency results have all landed. -/
def Ctx.quiet (c : Ctx) : Bool := c.flights.isEmpty

/-- A result enters flight (R14). -/
def State.fly (s : State) (g : Nat) (f : Flight) : State := s.updCtx g fun c => { c with flights := c.flights ++ [f] }

/-- What a slot sees at issue: its context, bundle address, slot, the state as it stood before the bundle, its bundle's CTL
word (R13). -/
structure Env where
  g : Nat
  pc : Word
  slot : Nat
  pre : State
  ctl : Nat

def Env.k (e : Env) : Nat := e.g / 4
def Env.c (e : Env) : Nat := e.g % 4
def Env.ctx (e : Env) : Ctx := e.pre.ctx e.g
def Env.regs (e : Env) : Regs := (e.pre.ctx e.g).regs
def Env.core (e : Env) : Core := e.pre.core (e.g / 4)
def Env.S (e : Env) (i : BitVec 6) : Word := e.regs.getS i.toNat
def Env.p (e : Env) : Nat := e.pre.partOf (e.g / 4)

/-- A trap of this slot at this bundle (R343). -/
def Env.trap (e : Env) (code : TrapCode) (addr : Word := 0) : Trap :=
  { code := code, slot := e.slot, addr := addr, pc := e.pc, epc := e.pc }

/-- An operation as its slot runs it. `reads` and `writes` are register keys under the predicates of the step, `queues` the
heads it reads, `fence` that its bundle is a latency fence for holding it (R84), `fenceIf` that it is one for running it, under a true
guard only (R142, R180; log entry 87), `wait` its own condition at stage 3 (none: ready; some: blocked, with what the wait sets going), `issue` its
effect on the state built up by the lower slots, or its trap. -/
structure SlotOp where
  reads : Env → List Nat := fun _ => []
  writes : Env → List Nat := fun _ => []
  queues : List Nat := []
  fence : Bool := false
  fenceIf : Bool := false
  yields : Bool := false
  /-- The id8 an RDV leaves in the record of a trap at its bundle (R90). -/
  tells : Nat := 0
  wait : Env → State → Option State := fun _ _ => none
  issue : Env → State → Except Trap State

/-- Row(code): the row an operand code names, if it names one (R17). -/
def Env.rowOf (e : Env) (code : BitVec 6) : Option Nat :=
  if code.toNat ≤ 39 then some code.toNat
  else if 48 ≤ code.toNat ∧ code.toNat ≤ 51 then some (e.regs.getX (code.toNat - 48))
  else none

/-- Keys of the rows that codes name. -/
def Env.rowKeys (e : Env) (codes : List (BitVec 6)) : List Nat := codes.filterMap fun c => (e.rowOf c).map rowKey

/-- Queue heads that codes name (R15). -/
def queueCodes (codes : List (BitVec 6)) : List Nat :=
  codes.filterMap fun c => if 52 ≤ c.toNat ∧ c.toNat ≤ 55 then some (c.toNat - 52) else none

/-- R130: a local address range of core k for a context, its alignment, the scratchpad's extent, the owner of every bank
touched. -/
def State.localCheckOn (s : State) (g k : Nat) (a : Word) (align len : Nat) : Option TrapCode :=
  let c := s.core k
  let n := a.toNat
  if n % align != 0 then some .align
  else if !(decide (n < 2 ^ 22) && decide (n + len ≤ c.split * 524288)) then some .access
  else if (List.range 32).any fun b =>
      decide (n / 131072 ≤ b) && decide (b ≤ (n + len - 1) / 131072) &&
      (c.moving.getLsbD b ||
        (match Tab.get none c.banks b with
          | some (l, _) => some l != (s.ctx g).launch
          | none => false))
    then some .access
  else none
def State.localCheck (s : State) (g : Nat) (a : Word) (align len : Nat) : Option TrapCode := s.localCheckOn g (g / 4) a align len

/-- The undo log of a segment takes a row's old content at its first write; none when the log is full (R353). -/
def Seg.log (q : Seg) (u : Undo) : Option Seg :=
  if q.undo.any fun v => v.isRow == u.isRow && v.index == u.index then some q
  else if 128 ≤ q.undo.length then none
  else some { q with undo := q.undo ++ [u] }

/-- Scratchpad rows a write touches go to the segment's undo log (R353). -/
def State.logRam (s : State) (g a len : Nat) (pending : Bool := false) : Option State :=
  match (s.ctx g).seg with
  | none => some s
  | some q =>
    let rows := (List.range (len / 256 + 2)).filterMap fun i =>
      let r := a / 256 + i
      if r * 256 < a + len then some r else none
    (rows.foldl (fun (q : Option Seg) r =>
      match q with
      | none => none
      | some q => q.log ⟨false, r, Mem.readRow (s.core (g / 4)).ram (r * 256), pending⟩) (some q)).map fun q =>
        s.updCtx g fun c => { c with seg := some q }

/-- The slots of a tile's cells as a log keeps them (R353, R313). -/
def Core.logTile (c : Core) (t : Nat) : TileLog :=
  { isCarry := false, index := t
    cells := (c.cells.filter fun e => decide (t * 16384 ≤ e.1) && decide (e.1 < (t + 1) * 16384)).map fun e => (e.1 - t * 16384, e.2)
    flags := [c.tInt.getLsbD t, c.tZeroInt.getLsbD t, c.resValid.getLsbD t]
    resid := (c.resid.filter fun e => decide (t * 256 ≤ e.1) && decide (e.1 < (t + 1) * 256)).map fun e => (e.1 - t * 256, e.2) }

/-- A plane's carry and status as a log keeps them: bm, bl and status by row. -/
def Core.logCarry (c : Core) (p : Nat) : TileLog :=
  { isCarry := true, index := p
    cells := (List.range 256).foldl (fun t r => Tab.set 0 t r (Tab.get 0 c.bm (p * 256 + r))) [] ++
      ((List.range 256).foldl (fun t r => Tab.set 0 t (256 + r) (Tab.get 0 c.bl (p * 256 + r))) []) ++
      ((List.range 256).foldl (fun t r => Tab.set 0 t (512 + r) (BitVec.ofNat 32 (Tab.get 0 c.status (p * 256 + r)))) [])
    flags := [], resid := [] }

/-- A bit of a twelve-bit tile set. -/
def setBit12 (m : BitVec 12) (i : Nat) (b : Bool) : BitVec 12 := if b then m ||| (1#12 <<< i) else m &&& ~~~(1#12 <<< i)

/-- A tile or carry as a log held it (R354, R314), at tile or plane `i`. -/
def Core.restoreTile (c : Core) (i : Nat) (l : TileLog) : Core :=
  if l.isCarry then
    { c with
      bm := l.cells.foldl (fun t e => if e.1 < 256 then Tab.set 0 t (i * 256 + e.1) e.2 else t) (Tab.keep (fun a _ => a / 256 != i) c.bm)
      bl := l.cells.foldl (fun t e => if e.1 / 256 = 1 then Tab.set 0 t (i * 256 + e.1 % 256) e.2 else t) (Tab.keep (fun a _ => a / 256 != i) c.bl)
      status := l.cells.foldl (fun t e => if e.1 / 256 = 2 then Tab.set 0 t (i * 256 + e.1 % 256) e.2.toNat else t) (Tab.keep (fun a _ => a / 256 != i) c.status) }
  else
    { c with
      cells := l.cells.foldl (fun t e => Tab.set 0 t (i * 16384 + e.1) e.2) (Tab.keep (fun a _ => a / 16384 != i) c.cells)
      tInt := setBit12 c.tInt i (l.flags.getD 0 false)
      tZeroInt := setBit12 c.tZeroInt i (l.flags.getD 1 false)
      resValid := setBit12 c.resValid i (l.flags.getD 2 false)
      resid := l.resid.foldl (fun t e => Tab.set (0, 0, 0, false) t (i * 256 + e.1) e.2) (Tab.keep (fun a _ => a / 256 != i) c.resid) }

/-- What a segment keeps of a context beside its checkpoint, and gives back (R68). -/
def Ctx.aside (c : Ctx) : Aside := ⟨c.marks, c.td, c.cpat, c.astat, c.drainSum, c.drainCnt, c.lastLen, c.lastPages⟩
def Ctx.putAside (c : Ctx) (a : Aside) : Ctx :=
  { c with marks := a.marks, td := a.td, cpat := a.cpat, astat := a.astat, drainSum := a.drainSum, drainCnt := a.drainCnt
           lastLen := a.lastLen, lastPages := a.lastPages }

/-- A change that something issued before the open segment makes to what the segment would give back: it stands after a rewind too. -/
def Ctx.keepAside (c : Ctx) (f : Aside → Aside) : Ctx := { c with seg := c.seg.map fun q => { q with aside := f q.aside } }
def Ctx.keepCheck (c : Ctx) (f : Regs → Regs) : Ctx := { c with seg := c.seg.map fun q => { q with check := f q.check } }

/-- A register by its key takes a value, or a mark that stands in its place; it is busy no more (R136, R366). What was issued before
the open segment stands after a rewind too. -/
def Ctx.landKey (c : Ctx) (inSeg : Bool) (key : Nat) (v : Nat) (mark : Option Mark) : Ctx :=
  let c := { c with busy := Tab.set 0 c.busy key 0 }
  let note (a : Aside) : Aside := { a with marks := if key = sKey 0 then a.marks else Tab.set none a.marks key mark }
  let c := if mark.isSome then c else if key < 256 then c.setV key (BitVec.ofNat 2048 v) else c.updRegs fun r => r.setS (key - 256) (BitVec.ofNat 64 v)
  let c := { c with marks := (note c.aside).marks }
  if inSeg then c
  else (c.keepAside note).keepCheck fun r => if mark.isSome ∨ key < 256 then r else r.setS (key - 256) (BitVec.ofNat 64 v)

/-- A change of what a segment gives back beside its checkpoint, by something issued in the open segment (`inSeg`) or before it. -/
def Ctx.tally (inSeg : Bool) (f : Aside → Aside) (c : Ctx) : Ctx :=
  let c := c.putAside (f c.aside)
  if inSeg then c else c.keepAside f

/-- SEGMENT_REWIND (R354): checkpoint, undo log and tile log restored, stores and deferred commands discarded, the
context back at its SEGB bundle, with what else its run changed (R68). The segment itself is kept or dropped by the caller. -/
def State.rewind (s : State) (g : Nat) : State :=
  match (s.ctx g).seg with
  | none => s
  | some q =>
    let s := q.tiles.foldl (fun s t => s.updCore (g / 4) fun c => c.restoreTile t.index t) s
    let s := q.undo.foldl (fun s u =>
      if u.isRow then s.updCtx g fun c => c.setV u.index u.old
      else s.updCore (g / 4) fun c => { c with ram := Mem.writeRow c.ram (u.index * 256) u.old }) s
    s.updCtx g fun c =>
      { (c.putAside q.aside) with regs := { q.check with step := c.regs.step, trapRec := c.regs.trapRec, pc := q.segbPc, inSeg := false }
                                  flights := [], bubble := 0, waited := false }

/-- The records of a flight in the in-flight record (R346): one descriptor with its value row, and a continuation for a
scale row. -/
def Flight.descr (f : Flight) : List (List Byte × Row) :=
  let d := fun (k : Nat) => natBytes 1 k ++ natBytes 1 (f.remain % 32 + 128 * f.slipped.toNat) ++ natBytes 2 f.dest ++
    natBytes 1 f.slot ++ natBytes 1 f.flags.toNat ++ natBytes 2 0 ++ natBytes 8 f.value.toNat
  (d f.kind, f.row) :: (if f.kind = 9 ∧ field f.value.toNat 8 1 = 1 ∧ field f.value.toNat 0 4 = 3 then [(d 10, f.row2)] else [])

/-- The trap record of a context (R345 to R347) as the bytes that are not zero, by offset. -/
def State.trapRecord (s : State) (g : Nat) (t : Trap) (abandoned wasSeg : Bool) : List (Nat × List Byte) :=
  let c := s.ctx g
  let r := c.regs
  let ds := (c.flights.map Flight.descr).flatten
  let lat := (List.range 15).foldl (fun m i => if (r.getLatch i).isSome then m + 2 ^ i else m) 0
  let flags := wasSeg.toNat + 2 * abandoned.toNat + 4 * t.blocked.toNat + 8 * t.isWrite.toNat + 16 * t.isAtomic.toNat + 32 * t.isFetch.toNat
  let loops := (r.loops.map fun l => natBytes 8 l.start.toNat ++ natBytes 8 l.stop.toNat ++ natBytes 8 l.left.toNat).flatten
  [(0, natBytes 1 t.code.num ++ natBytes 1 t.reason ++ natBytes 1 t.slot ++ natBytes 1 t.code8 ++ natBytes 1 ds.length ++
      natBytes 1 flags ++ natBytes 2 lat ++ natBytes 8 t.pc.toNat ++ natBytes 8 t.epc.toNat ++ natBytes 8 t.addr.toNat ++
      natBytes 8 s.timebase.toNat), (40, loops), (88, natBytes 1 r.loops.length)] ++
  (ds.zipIdx.map fun d => (256 + 16 * d.2, d.1.1)) ++
  (ds.zipIdx.map fun d => (1280 + 256 * d.2, rowBytes d.1.2)) ++
  ((List.range 15).map fun i => (17664 + 256 * i, rowBytes ((r.getLatch i).getD 0)))

/-- Bytes of a range set to zero at home, at virtual addresses of a partition, 256 bytes at a time (a chunk of a 256-byte
aligned record lies in one page). -/
def State.zeroVa (s : State) (w : Writer) (va : Word) (chunks : Nat) : State :=
  (List.range chunks).foldl (fun s i =>
    match s.resolve w.p (va + BitVec.ofNat 64 (256 * i)) 1 .read with
    | .ok pa => (s.lineZero w (pa / 128)).lineZero w (pa / 128 + 1)
    | .error _ => s) s

/-- A core's own copies of the bytes a controller writes for it are dropped, so that its contexts read them (R323, R348). -/
def State.forget (s : State) (k : Nat) (lo hi : Nat) : State :=
  s.updCore k fun c =>
    { c with siLines := Tab.keep (fun l _ => !(decide (lo / 128 ≤ l) && decide (l ≤ hi / 128))) c.siLines
             wiLines := Tab.keep (fun l _ => !(decide (lo / 128 ≤ l) && decide (l ≤ hi / 128))) c.wiLines
             unpub := Tab.keep (fun a _ => !(decide (lo ≤ a) && decide (a < hi))) c.unpub }

/-- The trap record written at trap.rec before the handler's first bundle (R345). -/
def State.writeRecord (s : State) (g : Nat) (t : Trap) (abandoned wasSeg : Bool) : State :=
  let p := s.partOf (g / 4)
  let va := (s.ctx g).regs.trapRec
  let out := s.trapRecord g t abandoned wasSeg
  let s := (List.range 85).foldl (fun s i =>
    match s.resolve p (va + BitVec.ofNat 64 (256 * i)) 1 .read with
    | .ok pa => s.forget (g / 4) pa (pa + 256)
    | .error _ => s) s
  let w : Writer := { tag := s.tagOf g, p := p }
  let s := s.zeroVa w va 85
  out.foldl (fun s e => s.storeVa w (va + BitVec.ofNat 64 e.1) e.2) s

/-- How many results in flight were issued before a fence; they stand first in issue order. -/
def Ctx.oldCount (c : Ctx) : Nat := (c.flights.filter fun f => f.old).length

/-- Whether a result in flight is to write a row or a scalar (R346), by its key. -/
def Flight.destKey (f : Flight) : Option Nat :=
  if f.kind = 1 ∨ f.kind = 11 then some (rowKey f.dest) else if f.kind = 3 then some (sKey f.dest) else none

/-- A trap at a bundle that holds an RDV: its record keeps the RDV's id8 (R90; log entry 76). -/
def Trap.tell (n : Nat) (t : Trap) : Trap := if n = 0 then t else { t with code8 := n }

/-- TAKING A TRAP (R88, R343 to R349, R354). In a segment the context is rewound first, and the trap stands at its SEGB.
With a handler and a record the trap saves its address in trap.epc, writes the record, empties latches, loops and flight,
sets in_handler and continues at trap.vec. STEP and BKPT under an attached debugger stop the context with its record
written. In every other case the context is terminated. An arrival at a barrier stands across the trap (R102, R209). -/
def State.enterTrap (s : State) (g : Nat) (t : Trap) : State :=
  let (s, t) := if t.anySlot then (s.tick, { t with slot := (Config.freeWord s.freeCtr).toNat % 8 }) else (s, t)
  let wasSeg := (s.ctx g).seg.isSome
  let t : Trap := match (s.ctx g).seg with
    | some q => { t with pc := q.segbPc, epc := q.segbPc }
    | none => t
  let s := if wasSeg then (s.rewind g).updCtx g fun c => { c with seg := none } else s
  let r := (s.ctx g).regs
  let s := s.updCtx g fun c =>
    { c with pend := none, yielding := false, dropped := if t.told then none else c.dropped
             regs := { c.regs with blocked := if t.code = TrapCode.step then t.blocked else c.regs.blocked } }
  let s := if t.gate then s.updShroud (g / 16) fun h => { h with refused := min (h.refused + 1) (2 ^ 32 - 1) } else s
  let clear := fun (c : Ctx) =>
    { c with flights := [], waited := false, recOld := c.oldCount, recWaited := c.waited
             recDests := c.flights.filterMap Flight.destKey
             regs := { c.regs with trapEpc := t.epc, latch := [], loops := [] } }
  if (s.ctx g).attached ∧ (t.code = TrapCode.step ∨ t.code = TrapCode.bkpt) ∧ r.trapRec ≠ 0 then
    (s.writeRecord g t wasSeg wasSeg).updCtx g fun c => { clear c with stopped := true }
  else if (s.ctx g).attached ∧ (t.code = TrapCode.step ∨ t.code = TrapCode.bkpt) then
    s.updCtx g fun c => { c with stopped := true, regs := { c.regs with pc := t.epc, trapEpc := t.epc } }
  else if r.trapVec ≠ 0 ∧ r.trapRec ≠ 0 ∧ !r.inHandler then
    (s.writeRecord g t wasSeg wasSeg).updCtx g fun c =>
      { clear c with regs := { (clear c).regs with inHandler := true, pc := r.trapVec } }
  else
    s.terminate g t.code196 { code := t.code196, source := 0, context := g, trap := t.code.num, pc := t.pc, addr := t.addr }

/-- Whether a store of core k to the lines of a context's trap record is still on its way: the record is written after it (R345). -/
def State.recordBusy (s : State) (g : Nat) : Bool :=
  s.reqs.any fun r => r.g / 4 == g / 4 && r.isWrite && (List.range 85).any fun i =>
    match s.resolve (s.partOf (g / 4)) ((s.ctx g).regs.trapRec + BitVec.ofNat 64 (256 * i)) 1 .read with
    | .ok pa => r.line == pa / 128 || r.line == pa / 128 + 1
    | .error _ => false

/-- A trap may be taken once bubbles are over, outstanding loads have landed, a segment's entries have ended, and no older store can
reach its record after it (R137, R345, R350, R354). -/
def State.trapReady (s : State) (g : Nat) : Bool :=
  (s.ctx g).bubble == 0 && (s.loads.all fun l => l.g != g) &&
  ((s.ctx g).seg.isNone || (s.core (g / 4)).halyard.all fun e => e.c != g % 4) && !s.recordBusy g

/-- A trap is raised: taken at once when it may be, else it waits. -/
def State.raise (s : State) (g : Nat) (t : Trap) : State :=
  if s.trapReady g then s.enterTrap g t else s.updCtx g fun c => { c with pend := some t }

/-- A byte of a virtual address as the contexts of core k see it (R323). -/
def State.seenVa (s : State) (k p : Nat) (va : Word) (n : Nat) : List Byte :=
  (List.range n).map fun i =>
    match s.resolve p (va + BitVec.ofNat 64 i) 1 .read with
    | .ok pa => s.seenByte k pa
    | .error _ => 0

/-- Whether a descriptor's fields are in range (R348). -/
def descrOk (kind remain dest : Nat) (res : Nat) : Bool :=
  decide (1 ≤ kind) && decide (kind ≤ 11) && field remain 5 2 == 0 && res == 0 &&
  (match kind with
    | 1 | 2 | 9 | 10 | 11 => decide (dest < 192)
    | 3 => decide (dest < 64)
    | 4 => decide (1 ≤ dest) && decide (dest ≤ 7)
    | 5 => decide (dest < 4)
    | 6 => decide (dest < 8)
    | 7 => crWritable dest
    | _ => decide (dest < 8))

/-- The in-flight record read back (R346, R348 step 4): none when a check of R348 fails. R348 checks no value of kinds 5 and 7: an
index base and an ls.split beyond their ranges land as free ones (log entry 86). -/
def State.readFlights (s : State) (k p : Nat) (va : Word) (n : Nat) : Option (List Flight) :=
  (List.range n).foldl (fun (acc : Option (List Flight)) i =>
    match acc with
    | none => none
    | some fl =>
      let d := bytesNat (s.seenVa k p (va + BitVec.ofNat 64 (256 + 16 * i)) 16)
      let kind := field d 0 8
      if !descrOk kind (field d 8 8) (field d 16 16) (field d 48 16 + field d 46 2) then none
      else
        let row := BitVec.ofNat 2048 (bytesNat (s.seenVa k p (va + BitVec.ofNat 64 (1280 + 256 * i)) 256))
        if kind = 10 then
          some (match fl.reverse with
            | f :: r => (({ f with row2 := row } :: r).reverse)
            | [] => [])
        else some (fl ++ [{ kind := kind, remain := field d 8 5, slipped := field d 15 1 == 1, dest := field d 16 16
                            slot := field d 32 8, flags := BitVec.ofNat 6 (field d 40 6), value := BitVec.ofNat 64 (field d 64 64)
                            row := if kind = 3 ∨ kind = 4 ∨ kind = 5 ∨ kind = 6 ∨ kind = 7 ∨ kind = 11 then 0 else row }])) (some [])

/-- The loop levels of a record, if they keep R81: an inner body lies within the outer. -/
def loopsOk : List Loop → Bool
  | [] => true
  | [l] => decide (l.start.toNat ≤ l.stop.toNat)
  | [o, i] => decide (o.start.toNat ≤ i.start.toNat) && decide (i.start.toNat ≤ i.stop.toNat) && decide (i.stop.toNat ≤ o.stop.toNat)
  | _ => false

/-- What the trap record gives back to the context (R348 steps 2 to 5): latches, loops, results in flight, pc; none when a
check fails. `jump` adds the cost of ERET's taken branch. -/
def State.restoreRecord (s : State) (g : Nat) : Option State :=
  let k := g / 4
  let p := s.partOf k
  let va := (s.ctx g).regs.trapRec
  let h := bytesNat (s.seenVa k p va 96)
  let depth := field h 704 8
  let loops := (List.range depth).map fun i =>
    (⟨BitVec.ofNat 64 (field h (320 + 192 * i) 64), BitVec.ofNat 64 (field h (384 + 192 * i) 64), BitVec.ofNat 64 (field h (448 + 192 * i) 64)⟩ : Loop)
  let nifr := field h 32 8
  if depth > 2 ∨ nifr > 64 ∨ !loopsOk loops then none
  else
    (s.readFlights k p va nifr).map fun fl =>
      let lat := field h 48 16
      let latch := (List.range 15).foldl (fun t i =>
        if lat.testBit i then
          Tab.set none t i (some (BitVec.ofNat 2048 (bytesNat (s.seenVa k p (va + BitVec.ofNat 64 (17664 + 256 * i)) 256))))
        else t) []
      s.updCtx g fun c =>
        { c with flights := fl.zipIdx.map fun (f : Flight × Nat) => { f.1 with old := decide (f.2 < c.recOld) }
                 waited := c.recWaited, recOld := 0, recWaited := false, recDests := []
                 regs := { c.regs with latch := latch, loops := loops, pc := c.regs.trapEpc, inHandler := false } }

/-- trap.rec of a context as command 0x07 laid it out (R379): the value it takes at a unit's start or at its ERET. -/
def State.trapRecOf (s : State) (g : Nat) : Word :=
  let p := s.partOf (g / 4)
  let x := s.part p
  if x.trapStride = 0 then 0 else x.trapBase + BitVec.ofNat 64 (x.trapStride * (g - 16 * p))

/-- RETURNING FROM A TRAP (R88, R348): the record is given back, trap.rec takes its current value, and a failed check
terminates the context with ILLEGAL_OPERAND, stopped at the bundle `pc`. -/
def State.leaveTrap (s : State) (g : Nat) (pc : Word) : State :=
  match s.restoreRecord g with
  | some s => s.updCtx g fun c => c.updRegs fun r => { r with trapRec := s.trapRecOf g }
  | none => s.terminate g 0 { code := 0, source := 0, context := g, trap := 2, pc := pc }

end Sys2Proof.Machine
end

