-- ==== Sys2Proof/Machine/Operands.lean ====
section
/-! DEFINITION. Operand forms: vector sources with their latches, destinations, register keys of an operation (R15 to R17, R106). -/

namespace Sys2Proof.Machine

/-- The operand latch of a position (a 0, b 1, c 2) of a slot, by row of R347; slots without one give none (R106). -/
def opLatch (slot pos : Nat) : Option Nat :=
  match slot with
  | 2 => some (8 + pos)
  | 3 => some (11 + pos)
  | 6 => some 14
  | _ => none

/-- Lane i of the 32-bit view holds i (R15 code 57). -/
def laneIndex : Row := packRow 32 (List.range 64)

/-- A vector source read at issue (R15, R108): an empty latch raises LATCH_STALE. -/
def Env.src (e : Env) (pos : Nat) (code : BitVec 6) : Except Trap Row :=
  match e.rowOf code with
  | some r => .ok (e.ctx.getV r)
  | none =>
    if code.toNat ≤ 47 then
      match e.regs.getLatch (code.toNat - 40) with
      | some v => .ok v
      | none => .error (e.trap .latchStale)
    else if code.toNat ≤ 55 then .ok ((Tab.get [] e.core.queues (code.toNat - 52)).headD 0)
    else if code = 56 then .ok 0
    else if code = 57 then .ok laneIndex
    else
      match opLatch e.slot pos with
      | none => .error (e.trap .illegalOperand)
      | some i =>
        match e.regs.getLatch i with
        | some v => .ok v
        | none => .error (e.trap .latchStale)

/-- A position's latch captures the value delivered to it (R106). -/
def Env.capture (e : Env) (pos : Nat) (v : Row) (s : State) : State :=
  match opLatch e.slot pos with
  | some i => s.updCtx e.g fun c => c.updRegs fun r => r.setLatch i v
  | none => s

/-- The row a destination code names (R16). -/
def Env.dst (e : Env) (code : BitVec 6) : Nat := (e.rowOf code).getD 0

/-- A row result under way (R14, R107): to a row, or with nwb to the slot's latch alone. -/
def Env.flyRow (e : Env) (s : State) (lat : Nat) (nwb : Bool) (d : BitVec 6) (v : Row) (fl : Flags) : State :=
  s.fly e.g { kind := if nwb then 2 else 1, remain := lat, dest := e.dst d, slot := e.slot, flags := fl, row := v }

/-- A scalar result under way. -/
def Env.flyS (e : Env) (s : State) (lat : Nat) (d : BitVec 6) (v : Word) (fl : Flags := 0) : State :=
  s.fly e.g { kind := 3, remain := lat, dest := d.toNat, slot := e.slot, flags := fl, value := v }

/-- A predicate pair under way (R95): the even predicate is b. -/
def Env.flyPair (e : Env) (s : State) (lat : Nat) (pair : BitVec 3) (b : Bool) : State :=
  s.fly e.g { kind := 4, remain := lat, dest := pair.toNat, slot := e.slot, value := if b then 1 else 0 }

/-- A result of another kind under way: index base 5, bt 6, control register 7. -/
def Env.flyK (e : Env) (s : State) (kind lat dest : Nat) (v : Word) : State :=
  s.fly e.g { kind := kind, remain := lat, dest := dest, slot := e.slot, value := v }

/-- A KV_FAULT of this bundle (R343): its reason, the handle in its address field. -/
def Env.kvTrap (e : Env) (reason : Nat) (h : Word) : Trap := { e.trap .kvFault h with reason := reason }

/-- What an acquire waits for at QUAD and wider: the context's outstanding loads and atomics (R325). -/
def acquireWait (s : State) (g scope : Nat) : Option State :=
  if scope ≥ 2 && s.loads.any fun l => l.g == g then some s else none

end Sys2Proof.Machine
end

