-- ==== Sys2Proof/Machine/Halyard.lean ====
section
/-! DEFINITION. Array entries: tile descriptors, operand ranges, the scoreboard, tile types as earlier entries will leave them (R158 to R164, R174, R175, R251). -/

namespace Sys2Proof.Machine

/-- Fields of a tile descriptor (R160). -/
def tdN (d : BitVec 512) (off n : Nat) : Nat := field d.toNat (8 * off) (8 * n)
def tdKind (d : BitVec 512) := tdN d 0 1
def tdFmt (d : BitVec 512) : XFmt := xfmtOf (tdN d 1 1)
def tdGroup (d : BitVec 512) := tdN d 2 1
def tdBase (d : BitVec 512) := tdN d 4 4
def tdRows (d : BitVec 512) := tdN d 8 2
def tdCol (d : BitVec 512) := tdN d 10 2
def tdCols (d : BitVec 512) := tdN d 12 2
def tdK (d : BitVec 512) := tdN d 16 4
def tdStride (d : BitVec 512) := tdN d 20 4
def tdScale (d : BitVec 512) := tdN d 24 8
def tdQscale (d : BitVec 512) := tdN d 32 4

/-- The array formats (R161). -/
def arrayFmt : XFmt → Bool
  | .bf16 | .fp16 | .e4m3 | .e5m2 | .sx7 | .i8 | .e2m1 | .mxfp4 | .sx4 | .sx2 => true
  | .fp32 | .i32 | .i16 | .n32 | .n16 | .n8 => false

/-- rowlen of K elements (R161). -/
def rowLen (f : XFmt) (k : Nat) : Nat :=
  match f with
  | .bf16 | .fp16 => 2 * k
  | .sx7 => 18 * ceilDiv k 16
  | .e2m1 => ceilDiv k 2
  | .mxfp4 => 16 * ceilDiv k 32
  | .sx4 => 12 * ceilDiv k 16
  | .sx2 => 8 * ceilDiv k 16
  | _ => k

/-- The rate w (R161). -/
def rate : XFmt → Nat
  | .e2m1 | .mxfp4 | .sx4 => 2
  | .sx2 => 4
  | _ => 1

/-- The checks of TDESC on a record (R160, R162). A Q's K is held to 1–2²⁰ as the other kinds' (log entry 89). -/
def tdOk (d : BitVec 512) : Bool :=
  let f := tdFmt d
  let k := tdK d
  let mx := f == .mxfp4
  let granule := tdN d 3 1 == (if mx then 32 else 0)
  let klen := decide (1 ≤ k) && decide (k ≤ 2 ^ 20)
  let base8 := tdBase d % 8 == 0
  let zeros := tdN d 14 2 == 0 && tdN d 36 28 == 0
  let rowsOk := decide (1 ≤ tdRows d) && decide (tdRows d ≤ 256)
  let strideOk := tdStride d % 8 == 0 && decide (rowLen f k ≤ tdStride d)
  decide (tdN d 1 1 ≤ 15) && klen && base8 && zeros &&
  (match tdKind d with
    | 1 => arrayFmt f && granule && tdGroup d == 0 && rowsOk && tdCol d == 0 && tdCols d == 0 && strideOk &&
        (mx || tdScale d == 0) && tdQscale d == 0
    | 2 => arrayFmt f && granule && tdGroup d == 0 && tdRows d == 0 && decide (tdCol d ≤ 383) && decide (1 ≤ tdCols d) &&
        decide (tdCol d + tdCols d ≤ 384) && tdStride d == 0 && (mx || tdScale d == 0) && tdQscale d == 0 &&
        decide (tdBase d + rowLen f k ≤ 0xF000) && (!mx || decide (tdScale d + ceilDiv k 32 ≤ 0xF000))
    | 3 => (f == .bf16 || f == .e4m3) && tdN d 3 1 == 0 && decide (1 ≤ tdGroup d) && decide (tdGroup d ≤ 64) && rowsOk &&
        tdRows d % tdGroup d == 0 && tdCol d == 0 && tdCols d == 0 && strideOk && tdScale d == 0
    | _ => false)

/-- The scratchpad bytes of an A or Q operand, row by row, with an A operand's scales (R160). -/
def tdRanges (d : BitVec 512) : List (Nat × Nat) :=
  let f := tdFmt d
  ((List.range (tdRows d)).map fun m => (tdBase d + m * tdStride d, rowLen f (tdK d))) ++
  (if f = .mxfp4 then [(tdScale d, tdRows d * ceilDiv (tdK d) 32)] else [])

/-- Bytes of one tile's row in a drain (R174). -/
def rowBytesOf (f : XFmt) : Nat :=
  match f with
  | .fp32 | .i32 => 256
  | .bf16 | .fp16 | .i16 => 128
  | .e4m3 | .e5m2 | .i8 => 64
  | .e2m1 => 32
  | .mxfp4 => 34
  | .sx7 => 72
  | .sx4 => 48
  | .sx2 => 32
  | _ => 0

/-- The range a drain writes (R174, R175). -/
def drainLen (f : XFmt) (codec cnt : Nat) : Nat :=
  let u := 256 * rowBytesOf f * cnt
  if codec = 0 then u else ceilDiv (2 * (u / 256)) 256 * 256 + 264 * (u / 256)

/-- The scratchpad range an MBOOM operation reads or writes (R178). -/
def boomLen (op cnt : Nat) : Nat :=
  match op with
  | 0 | 1 | 2 => 1024
  | 3 => 256 * cnt
  | 4 => 4
  | 7 => 256
  | _ => 0

/-- Scratchpad ranges an entry reads, and those it writes (R164). -/
def HEntry.readRanges (h : HEntry) : List (Nat × Nat) :=
  match h.op with
  | 2 | 3 | 8 => tdRanges h.ta
  | 7 => if h.sub = 2 ∨ h.sub = 3 ∨ h.sub = 4 then [(h.addr, boomLen h.sub h.cnt)] else []
  | _ => []
def HEntry.writeRanges (h : HEntry) : List (Nat × Nat) :=
  match h.op with
  | 6 => [(h.addr, drainLen (xfmtOf h.fmt) h.codec h.cnt)]
  | 7 => if h.sub ≤ 1 ∨ h.sub = 7 then [(h.addr, boomLen h.sub h.cnt)] else []
  | _ => []

/-- Whether an access touches a 256-byte row of a range (R251). -/
def rowsMeet (a len : Nat) (r : Nat × Nat) : Bool :=
  decide (0 < r.2) && decide (r.1 / 256 ≤ (a + len - 1) / 256) && decide (a / 256 ≤ (r.1 + r.2 - 1) / 256)

/-- The scoreboard toward the LSU (R164): whether a load, or a store, of a range is blocked. -/
def Core.loadBlocked (c : Core) (a len : Nat) : Bool := c.halyard.any fun h => h.writeRanges.any (rowsMeet a len)
def Core.storeBlocked (c : Core) (a len : Nat) : Bool :=
  c.halyard.any fun h => h.writeRanges.any (rowsMeet a len) || h.readRanges.any (rowsMeet a len)

/-- R130 over several ranges, with the address of the first that fails. -/
def State.rangesCheck (s : State) (g align : Nat) (rs : List (Nat × Nat)) : Option (TrapCode × Word) :=
  let fails := rs.filterMap fun r => (s.localCheck g (BitVec.ofNat 64 r.1) align r.2).map fun t => (t, BitVec.ofNat 64 r.1)
  match fails.find? fun f => f.1 == .align with
  | some f => some f
  | none => fails.head?

/-- Tiles an entry has in flight (R164): those it names, O and score tiles of an ATTN, c(6p) where it uses the carry. -/
def HEntry.tiles (h : HEntry) : List Nat :=
  if h.op = 10 then []
  else if h.op = 9 then [6 * (h.tile / 6), h.tile]
  else if h.op = 7 ∧ 4 ≤ h.sub then 6 * (h.tile / 6) :: (List.range h.cnt).map fun i => h.tile + i
  else (List.range h.cnt).map fun i => h.tile + i

/-- Whether a tile has an array operation in flight on a core. -/
def Core.tileBusy (c : Core) (t : Nat) : Bool := c.halyard.any fun h => h.tiles.contains t

/-- Types and residue validity of the tiles (R158). -/
structure TileSt where
  int : BitVec 12
  zeroInt : BitVec 12
  valid : BitVec 12

/-- The tiles T to T + count − 1 of an entry. -/
def HEntry.tileList (h : HEntry) : List Nat := (List.range h.cnt).map fun i => h.tile + i

/-- What an entry does to types and validity (R168, R171, R172, R181): of every tile of its range, those that B's columns do not
reach among them (log entry 85). An ATTN zeroes its O tiles only where it starts (R179). -/
def TileSt.after (t : TileSt) (h : HEntry) : TileSt :=
  match h.op with
  | 2 | 3 =>
    let i8 := tdFmt h.ta == .i8
    h.tileList.foldl (fun t c =>
      { int := setBit12 t.int c i8
        zeroInt := if h.z then setBit12 t.zeroInt c i8 else t.zeroInt
        valid := setBit12 t.valid c (h.ck && (h.z || t.valid.getLsbD c)) }) t
  | 5 => h.tileList.foldl (fun t c =>
      { int := setBit12 t.int c false, zeroInt := setBit12 t.zeroInt c false, valid := setBit12 t.valid c true }) t
  | 8 => h.tileList.foldl (fun t c =>
      { int := setBit12 t.int c false
        zeroInt := if h.range.getLsbD 46 && c + 1 != h.tile + h.cnt then setBit12 t.zeroInt c false else t.zeroInt
        valid := setBit12 t.valid c false }) t
  | _ => t

/-- Types and validity as a context's earlier entries will leave them (R163). -/
def Core.projected (c : Core) (ctx : Nat) : TileSt :=
  (c.halyard.filter fun h => h.c == ctx).foldl TileSt.after ⟨c.tInt, c.tZeroInt, c.resValid⟩

/-- Whether a context owns every tile of a list (R159). -/
def Core.owns (c : Core) (ctx : Nat) (ts : List Nat) : Bool := ts.all fun t => Tab.get none c.tOwner t == some ctx

end Sys2Proof.Machine
end

