-- ==== Sys2Proof/Machine/Store.lean ====
section
/-! DEFINITION. The paged store: descriptors, pools, sequences, pages, blocks and the operations on them (R256 to R285). Each operation's commits are made at one moment, as the store engines apply them (R272). -/

namespace Sys2Proof.Machine

/-- The physical place of a store structure's byte: the store engines and the walker are not bound by page rights (R261). -/
def State.physOf (s : State) (p : Nat) (va : Nat) : Option Nat :=
  let w := BitVec.ofNat 64 va
  if canonical w then ((s.mapOf p w).filter (s.frameHere p)).map fun m => pagePa m (va % 65536) else none

/-- A structure's bytes as they stand at home, as a number; zero where nothing is mapped. -/
def State.kvN (s : State) (p va n : Nat) : Nat :=
  bytesNat ((List.range n).map fun i => match s.physOf p (va + i) with | some a => s.homeByte a | none => 0)

/-- The lines that L2 holds poisoned (R341). -/
def State.badLines (s : State) : List Nat :=
  (List.range 8).flatMap fun k => (s.shroud k).l2.filterMap fun e => if e.2.any fun v => v.bad then some e.1 else none

/-- What a store engine or the walker that reads a structure's bytes meets (R196, R341; log entry 95): code PAGE with the virtual
address where a page of them has no translation, code UE with the line's address where one is poisoned. -/
def State.kvTrouble (s : State) (p va n : Nat) : Option (Nat × Nat) :=
  let bad := s.badLines
  (List.range (n / 65536 + 2)).findSome? fun i =>
    let a := if i = 0 then va else (va / 65536 + i) * 65536
    let e := min (va + n) ((va / 65536 + i + 1) * 65536)
    if e ≤ a then none
    else
      match s.physOf p a with
      | none => some (1, a)
      | some pa => (bad.find? fun l => decide (l * 128 < pa + (e - a)) && decide (pa < l * 128 + 128)).map fun l => (4, l * 128)

/-- A structure's bytes written at home: by a store engine for the launch that issued the command, or by the controller (R340). -/
def State.kvPut (s : State) (w : Writer) (va : Nat) (bs : List Byte) : State :=
  s.homeWrite w ((addrBytes va bs).filterMap fun e => (s.physOf w.p e.1).map fun a => (a, e.2))
def State.kvPutN (s : State) (w : Writer) (va n v : Nat) : State := s.kvPut w va (natBytes n v)

/-- Store id's entry of a partition. -/
def State.storeOf (s : State) (p id : Nat) : Option Store := Tab.get none (s.part p).stores id
/-- The descriptor of a store written where it lies in the partition's HBM, for programs to read (R261; log entry 38). -/
def State.descWrite (s : State) (p : Nat) (t : Store) : State :=
  match t.place with
  | none => s
  | some a => s.homeStore (ctl p) (p * 2 ^ 36 + a) t.desc
def State.updStore (s : State) (p id : Nat) (f : Store → Store) : State :=
  let s' := s.updPart p fun x => { x with stores := Tab.set none x.stores id ((Tab.get none x.stores id).map f) }
  match s.storeOf p id, s'.storeOf p id with
  | some a, some b => if a.desc = b.desc then s' else s'.descWrite p b
  | _, _ => s'

/-- Descriptor fields (R262). -/
def Store.n (t : Store) (off n : Nat) : Nat := recN t.desc off n
def Store.T (t : Store) := t.n 1 1
def Store.H (t : Store) := t.n 2 1
def Store.L (t : Store) := t.n 3 1 + 1
def Store.D (t : Store) := t.n 4 2
def Store.nfmt (t : Store) : XFmt := xfmtN (t.n 6 1)
where
  /-- The native format by its R30 code. -/
  xfmtN (c : Nat) : XFmt := if c = 3 then .e4m3 else .bf16
def Store.promote (t : Store) : Bool := (t.n 7 1).testBit 0
def Store.ladderOn (t : Store) : Bool := (t.n 7 1).testBit 1
def Store.tracking (t : Store) : Bool := (t.n 7 1).testBit 2
def Store.newClass (t : Store) : Nat := field (t.n 7 1) 3 3
def Store.slots (t : Store) := t.n 16 4
/-- A descriptor field rewritten. -/
def Store.put (t : Store) (off n v : Nat) : Store :=
  { t with desc := t.desc.take off ++ natBytes n v ++ t.desc.drop (off + n) }

/-- A pool's entry (R263): index 3 × tier + format. -/
def Store.pool (t : Store) (i off n : Nat) : Nat := t.n (64 + 24 * i + off) n

/-- A block (R272): in a pool, or in a borrowed frame with its lender's chip, window and frame size. -/
structure Blk where
  fmt : Nat
  tier : Nat
  id : Nat
  far : Option (Nat × Nat × Nat) := none
deriving DecidableEq, Repr

def Blk.pool (b : Blk) : Nat := 3 * b.tier + b.fmt
/-- The block reference (R272). -/
def Blk.ref (b : Blk) : Nat := (if b.far.isSome then 2 ^ 27 else 0) + b.tier * 2 ^ 26 + b.fmt * 2 ^ 24 + b.id
/-- Whether two name one block: a borrowed frame is the same whatever format its entry gives (R267, R271). -/
def Blk.same (a b : Blk) : Bool :=
  a.id == b.id && a.far == b.far && (a.far.isSome || (a.fmt == b.fmt && a.tier == b.tier))
/-- The block reference that names none (R272). -/
def noRef : Nat := 2 ^ 32 - 1

/-- e(F) of R264 in bits. -/
def Store.ebits (t : Store) (fmt : Nat) : Nat :=
  match fmt with
  | 0 => if t.nfmt = .e4m3 then 8 else 16
  | 1 => 8
  | _ => 4
/-- SlotB and ScaleB of R264. -/
def Store.slotB (t : Store) (fmt : Nat) : Nat := 2 * t.H * t.T * t.D * t.ebits fmt / 8
def Store.scaleB (t : Store) (fmt : Nat) : Nat :=
  match fmt with
  | 0 => 0
  | 1 => 8 * t.H
  | _ => 2 * t.H * t.T * t.D / 32
/-- The bytes a block takes, all its runs (R264, R282). -/
def Store.blockB (t : Store) (fmt : Nat) : Nat := t.L * (t.slotB fmt + 8 + t.scaleB fmt)

/-- The offset of a block's run from its pool's base, or from its frame (R264, R282): 0 data, 1 layer mask, 2 scales. -/
def Store.runOff (t : Store) (fmt count b part l : Nat) : Nat :=
  match part with
  | 0 => (l * count + b) * t.slotB fmt
  | 1 => t.L * count * t.slotB fmt + (l * count + b) * 8
  | _ => t.L * count * (t.slotB fmt + 8) + (l * count + b) * t.scaleB fmt

/-- Where a byte of another chip's window is kept. -/
def remoteKey (chip win off : Nat) : Nat := (chip * 1024 + win) * 2 ^ 64 + off

/-- A byte of another chip's window: what this package put there, else a free value (log entry 6). -/
def State.remoteByte (s : State) (chip win off : Nat) : Byte :=
  match Tab.get none s.remote (remoteKey chip win off) with
  | some b => b
  | none => (Config.freeWord (remoteKey chip win off)).setWidth 8
def State.remotePut (s : State) (chip win off : Nat) (bs : List Byte) : State :=
  { s with remote := (addrBytes off bs).foldl (fun m e => Tab.set none m (remoteKey chip win e.1) (some e.2)) s.remote }

/-- Bytes of a block's run, read and written (R264, R277). -/
def State.blkN (s : State) (p : Nat) (t : Store) (b : Blk) (part l off n : Nat) : Nat :=
  match b.far with
  | none => s.kvN p (t.pool b.pool 0 8 + t.runOff b.fmt (t.pool b.pool 16 4) b.id part l + off) n
  | some (chip, win, size) =>
    let o := b.id * size + t.runOff b.fmt 1 0 part l + off
    bytesNat ((List.range n).map fun i => s.remoteByte chip win (o + i))
def State.blkPut (s : State) (w : Writer) (t : Store) (b : Blk) (part l off n v : Nat) : State :=
  match b.far with
  | none => s.kvPutN w (t.pool b.pool 0 8 + t.runOff b.fmt (t.pool b.pool 16 4) b.id part l + off) n v
  | some (chip, win, size) => s.remotePut chip win (b.id * size + t.runOff b.fmt 1 0 part l + off) (natBytes n v)

/-- The address of a block's metadata or of a borrowed-frame record (R269, R271). -/
def Store.metaAt (t : Store) (b : Blk) : Nat :=
  if b.far.isSome then t.n 40 8 + 16 * (b.id % 2 ^ t.n 36 1) else t.pool b.pool 8 8 + 16 * b.id
def State.meta0 (s : State) (p : Nat) (t : Store) (b : Blk) : Nat := s.kvN p (t.metaAt b) 8
def State.meta1 (s : State) (p : Nat) (t : Store) (b : Blk) : Nat := s.kvN p (t.metaAt b + 8) 8
def State.refs (s : State) (p : Nat) (t : Store) (b : Blk) : Nat := field (s.meta0 p t b) 48 16
/-- A field of metadata word 0 replaced. -/
def withField (v lo n x : Nat) : Nat := v - field v lo n * 2 ^ lo + (x % 2 ^ n) * 2 ^ lo
def State.putMeta (s : State) (w : Writer) (t : Store) (b : Blk) (lo n x : Nat) : State :=
  s.kvPutN w (t.metaAt b) 8 (withField (s.meta0 w.p t b) lo n x)
/-- age := now, timebase [41:10] (R269). -/
def State.touch (s : State) (w : Writer) (t : Store) (b : Blk) : State :=
  s.kvPutN w (t.metaAt b + 8) 4 (field s.timebase.toNat 10 32)

/-- A change to a block's data, or a commit naming it, under migration tracking (R285): mig_dirty, and an entry of the migration
log until its head reaches the capacity. -/
def State.markDirty (s : State) (w : Writer) (id : Nat) (b : Blk) : State :=
  match s.storeOf w.p id with
  | none => s
  | some t =>
    if !t.tracking || (s.meta0 w.p t b).testBit 43 then s
    else
      let s := s.putMeta w t b 43 1 1
      let head := t.n 60 4 % 2 ^ 31
      if (t.n 60 4).testBit 31 ∨ t.n 56 4 ≤ head then s.updStore w.p id fun t => t.put 60 4 (2 ^ 31 + head)
      else
        let s := s.kvPutN w (t.n 48 8 + 8 * head) 8 (id * 2 ^ 32 + b.ref)
        s.updStore w.p id fun t => t.put 60 4 ((if head + 1 = t.n 56 4 then 2 ^ 31 else 0) + head + 1)

/-- A sequence entry's field (R266), its page entry and its mask word (R267, R268). -/
def Store.seqAt (t : Store) (slot : Nat) : Nat := t.n 8 8 + 64 * slot
def State.seqN (s : State) (p : Nat) (t : Store) (slot off n : Nat) : Nat := s.kvN p (t.seqAt slot + off) n
def State.seqPut (s : State) (w : Writer) (t : Store) (slot off n v : Nat) : State := s.kvPutN w (t.seqAt slot + off) n v
def State.pageE (s : State) (p : Nat) (t : Store) (slot pi : Nat) : Nat := s.kvN p (s.seqN p t slot 16 8 + 8 * pi) 8
def State.putPage (s : State) (w : Writer) (t : Store) (slot pi v : Nat) : State := s.kvPutN w (s.seqN w.p t slot 16 8 + 8 * pi) 8 v
def State.maskW (s : State) (p : Nat) (t : Store) (slot pi : Nat) : Nat := s.kvN p (s.seqN p t slot 24 8 + 8 * pi) 8
def State.putMask (s : State) (w : Writer) (t : Store) (slot pi v : Nat) : State := s.kvPutN w (s.seqN w.p t slot 24 8 + 8 * pi) 8 v

/-- Fields of a page entry (R267); locations 5 to 7 and format 3 read as absent. -/
def peLoc (e : Nat) : Nat := field e 60 3
def peFmt (e : Nat) : Nat := field e 58 2
def peValid (e : Nat) : Bool := e.testBit 63 && decide (peLoc e ≤ 4) && peFmt e != 3
def peFill (e : Nat) : Nat := field e 51 7
/-- A page entry naming a block (R267): pool blocks outside HBM take the location of their mapping's memory type. -/
def peOf (loc : Nat) (b : Blk) (fill : Nat) : Nat :=
  2 ^ 63 + loc * 2 ^ 60 + b.fmt * 2 ^ 58 + fill * 2 ^ 51 + (match b.far with | some (chip, _, _) => if loc = 2 then chip * 2 ^ 36 else 0 | none => 0) + b.id
def State.locOf (s : State) (p : Nat) (t : Store) (b : Blk) : Nat :=
  if b.far.isSome then 2
  else if b.tier = 0 then 0
  else
    match s.mapOf p (BitVec.ofNat 64 (t.pool b.pool 0 8)) with
    | some m => if m.mtype = .host then 4 else 1
    | none => 1

/-- The block a block reference names (R272). -/
def Store.blkOfRef (t : Store) (r : Nat) : Blk :=
  if r.testBit 27 then
    match t.lends.find? fun x => x.1 == field r 0 24 with
    | some (f, chip, win, size) => ⟨field r 24 2, 0, f, some (chip, win, size)⟩
    | none => ⟨field r 24 2, 0, field r 0 24, some (0, 0, 0)⟩
  else ⟨field r 24 2, field r 26 1, field r 0 24, none⟩

/-- The block a page entry itself names (R267). One in transit names the borrowed frame of its number, or else a block of
tier 0, since its location gives no tier (log entry 82). -/
def Store.namedBlk (t : Store) (e : Nat) : Option Blk :=
  let frame (ok : Nat × Nat × Nat × Nat → Bool) : Option Blk :=
    (t.lends.find? fun x => x.1 == field e 0 24 && ok x).map fun x => ⟨peFmt e, 0, x.1, some (x.2.1, x.2.2.1, x.2.2.2)⟩
  if !peValid e then none
  else
    match peLoc e with
    | 0 => some ⟨peFmt e, 0, field e 0 24, none⟩
    | 1 | 4 => some ⟨peFmt e, 1, field e 0 24, none⟩
    | 2 => some ((frame fun x => x.2.1 == field e 36 12).getD ⟨peFmt e, 0, field e 0 24, some (field e 36 12, 0, 0)⟩)
    | _ => some ((frame fun _ => true).getD ⟨peFmt e, 0, field e 0 24, none⟩)

/-- Whether a block's move has committed and its release has not (R274), and the block it is forwarded to. -/
def State.fwd (s : State) (p : Nat) (t : Store) (b : Blk) : Bool := (b.far.isNone || t.n 36 1 != 0) && (s.meta1 p t b).testBit 63
def State.follow (s : State) (p : Nat) (t : Store) (b : Blk) : Blk :=
  if s.fwd p t b then t.blkOfRef (field (s.meta1 p t b) 32 31) else b

/-- The block a page entry holds, forwards followed, one in transit included (R267, R274, R282). -/
def State.heldBlk (s : State) (p : Nat) (t : Store) (e : Nat) : Option Blk := (t.namedBlk e).map (s.follow p t)

/-- Whether a page reads as in transit: its block is being moved and the move has not committed (R267, R282). -/
def State.inTransit (s : State) (p : Nat) (t : Store) (e : Nat) : Bool :=
  peValid e && peLoc e == 3 && !(t.namedBlk e).any fun b => s.fwd p t b

/-- The block a page entry gives a reader: none when absent or in transit (R267, R274). -/
def State.blockOf (s : State) (p : Nat) (t : Store) (e : Nat) : Option Blk :=
  if s.inTransit p t e then none else s.heldBlk p t e

/-- A handle resolved (R217, R265): its store and slot, when the store is configured, the slot not the root and live, and
the generation matches. -/
def State.handle (s : State) (p : Nat) (h : Nat) : Option (Nat × Store × Nat) :=
  match s.storeOf p (field h 26 6) with
  | none => none
  | some t =>
    let slot := field h 6 20
    if slot ≠ 0 ∧ slot < t.slots ∧ (s.seqN p t slot 1 1).testBit 0 ∧ field (s.seqN p t slot 0 1) 0 6 = field h 0 6 then
      some (field h 26 6, t, slot)
    else none

/-- The reservations' sum, and a launch's count left (R279). -/
def Store.reserved (t : Store) : Nat := t.rsv.foldl (fun n r => n + r.2) 0
def Store.left (t : Store) (l : Nat) : Nat := match t.rsv.find? fun r => r.1 == l with | some r => r.2 | none => 0
def Store.top (t : Store) (i : Nat) : Nat := t.pool i 20 4

/-- A block popped from a pool (R264, R274): layer masks cleared, refcount 0, the class given, age now. -/
def State.popBlock (s : State) (w : Writer) (id i cls : Nat) : Option (State × Blk) :=
  match s.storeOf w.p id with
  | none => none
  | some t =>
    if t.pool i 16 4 = 0 ∨ t.top i = 0 then none
    else
      let top := t.top i - 1
      let base := t.pool i 0 8 + t.L * t.pool i 16 4 * (t.slotB (i % 3) + 8 + t.scaleB (i % 3))
      let b : Blk := ⟨i % 3, i / 3, s.kvN w.p (base + 4 * top) 4 % 2 ^ 24, none⟩
      let s := s.updStore w.p id fun t => t.put (64 + 24 * i + 20) 4 top
      let s := (List.range t.L).foldl (fun s l => s.blkPut w t b 1 l 0 8 0) s
      let s := s.kvPutN w (t.metaAt b) 8 (cls * 2 ^ 45 + id * 2 ^ 24)
      let s := s.kvPutN w (t.metaAt b + 8) 8 (field s.timebase.toNat 10 32)
      some (s, b)

/-- A block pushed on its pool's stack, or a borrowed frame returned to its lender (R259, R264, R274). -/
def State.release (s : State) (w : Writer) (id : Nat) (b : Blk) : State :=
  match s.storeOf w.p id with
  | none => s
  | some t =>
    let s := s.updStore w.p id fun t => { t with moves := t.moves.filter fun r => r != b.ref }
    match b.far with
    | some (chip, win, _) =>
      let s := s.kvPutN w (t.metaAt b) 16 0
      let s := s.updStore w.p id fun t => { t with lends := t.lends.filter fun x => !(x.1 == b.id && x.2.1 == chip) }
      { s with outbox := s.outbox ++ [(none, chip, natBytes 2 win ++ natBytes 4 b.id)] }
    | none =>
      let i := b.pool
      let base := t.pool i 0 8 + t.L * t.pool i 16 4 * (t.slotB b.fmt + 8 + t.scaleB b.fmt)
      let s := s.kvPutN w (t.metaAt b) 16 0
      let s := s.kvPutN w (base + 4 * t.top i) 4 b.id
      s.updStore w.p id fun t => t.put (64 + 24 * i + 20) 4 (t.top i + 1)

/-- One holder fewer: at 0 the block is released (R273, R274). -/
def State.dropRef (s : State) (w : Writer) (id : Nat) (b : Blk) : State :=
  match s.storeOf w.p id with
  | none => s
  | some t =>
    let n := s.refs w.p t b
    if n ≤ 1 then s.release w id b else s.putMeta w t b 48 16 (n - 1)

/-- A commit record (R272). `what` holds the bits of that field. -/
structure Commit where
  kind : Nat
  store : Nat
  what : Nat
  layer : Nat := 0
  slot : Nat := 0
  page : Nat := 0
  u : Nat := 0
  entry : Nat := 0
  mask : Nat := 0
  committed : Nat := 0
  spec : Nat := 0
  pages : Nat := 0
  down : Nat := noRef
  up : Nat := noRef
deriving DecidableEq, Repr

/-- The 64 bytes of a record with its sequence number (R272). -/
def Commit.bytes (c : Commit) (seq : Nat) : List Byte :=
  natBytes 8 seq ++ natBytes 1 c.kind ++ natBytes 1 c.store ++ natBytes 1 c.what ++ natBytes 1 c.layer ++ natBytes 4 c.slot ++
  natBytes 4 c.page ++ natBytes 1 c.u ++ natBytes 3 0 ++ natBytes 8 c.entry ++ natBytes 8 c.mask ++ natBytes 4 c.committed ++
  natBytes 4 c.spec ++ natBytes 4 c.pages ++ natBytes 4 c.down ++ natBytes 4 c.up ++ natBytes 4 0

/-- The home shroud of a store: that of Home of its descriptor's address (R41, R272; log entry 20). -/
def State.storeHome (s : State) (p id : Nat) : Nat := s.homeShroud p (p * 2 ^ 36 + ((s.storeOf p id).bind Store.place).getD 0)

/-- A record at the end of its home shroud's commit log, its number one above the last one's (R272). -/
def State.logCommit (s : State) (p : Nat) (c : Commit) : State :=
  let sh := s.storeHome p c.store
  let h := s.shroud sh
  let r := c.bytes (recN ((h.commits.getLast?).getD []) 0 8 + 1)
  let s := s.updShroud sh fun x => { x with commits := x.commits ++ [r] }
  match h.logPlace with
  | none => s
  | some a =>
    let at_ := a + 64 * h.commits.length
    if at_ + 64 ≤ 2 ^ 36 then s.homeStore (ctl p) (sh * 2 ^ 36 + at_) r else s

/-- The changes of a record, all at once (R272, R274): increments and a forward's target first, decrements last (R273). -/
def State.applyCommit (s : State) (w : Writer) (c : Commit) : State :=
  match s.storeOf w.p c.store with
  | none => s
  | some t =>
    let up := t.blkOfRef c.up
    let down := t.blkOfRef c.down
    let s := if c.what.testBit 5 then
        let s := s.putMeta w t up 48 16 (s.refs w.p t up + 1)
        -- a fork's holder counts with its class where that is smaller (R269)
        if c.kind = 4 then s.putMeta w t up 45 3 (min (s.seqN w.p t c.slot 2 1) (field (s.meta0 w.p t up) 45 3)) else s
      else s
    let s := if c.what.testBit 6 then
        let m := s.meta0 w.p t down
        let s := (s.putMeta w t up 48 16 (field m 48 16)).putMeta w t up 45 3 (field m 45 3)
        let s := s.kvPutN w (t.metaAt down + 8) 8 (2 ^ 63 + c.up * 2 ^ 32 + s.meta1 w.p t down % 2 ^ 32)
        (s.updStore w.p c.store fun t => { t with moves := t.moves ++ [c.down] }).markDirty w c.store up
      else s
    let s := if c.what.testBit 2 then
        match s.heldBlk w.p t c.entry with
        | some b => s.blkPut w t b 1 c.layer 0 8 (withField (s.blkN w.p t b 1 c.layer 0 8) c.u 1 1)
        | none => s
      else s
    let s := if c.what.testBit 0 then
        let s := s.putPage w t c.slot c.page c.entry
        match s.heldBlk w.p t c.entry with
        | some b => s.markDirty w c.store b
        | none => s
      else s
    let s := if c.what.testBit 1 then s.putMask w t c.slot c.page c.mask else s
    let s := if c.what.testBit 7 then
        if c.kind = 5 then
          let g := field (s.seqN w.p t c.slot 0 1) 0 6
          (s.seqPut w t c.slot 0 1 (if g = 63 then 1 else g + 1)).seqPut w t c.slot 1 1 0
        else s.seqPut w t c.slot 1 1 1
      else s
    let s := if c.what.testBit 3 then
        ((s.seqPut w t c.slot 4 4 c.committed).seqPut w t c.slot 8 4 c.spec).seqPut w t c.slot 12 4 c.pages
      else s
    let s := if c.kind = 11 then s.release w c.store down else s
    if c.what.testBit 4 then s.dropRef w c.store down else s

/-- A change to a store (R272): its record is logged and its changes are applied as one unit. -/
def State.commit (s : State) (w : Writer) (c : Commit) : State := (s.logCommit w.p c).applyCommit w c

/-- What a reader of one layer of a block meets (R341), and of all its layers. -/
def State.layerTrouble (s : State) (p : Nat) (t : Store) (b : Blk) (l : Nat) : Option (Nat × Nat) :=
  if b.far.isSome then none
  else
    [(0, t.slotB b.fmt), (1, 8), (2, t.scaleB b.fmt)].findSome? fun r =>
      s.kvTrouble p (t.pool b.pool 0 8 + t.runOff b.fmt (t.pool b.pool 16 4) b.id r.1 l) r.2
def State.blkTrouble (s : State) (p : Nat) (t : Store) (b : Blk) : Option (Nat × Nat) :=
  (List.range t.L).findSome? fun l => s.layerTrouble p t b l

/-- Whether every layer-mask bit of a block is set (R268). -/
def State.blkFull (s : State) (p : Nat) (t : Store) (b : Blk) : Bool :=
  (List.range t.L).all fun l => s.blkN p t b 1 l 0 8 == 2 ^ t.T - 1

/-- The exact value of element (h, u, d) of K (half 0) or V (half 1) without its FP32 scale, and that scale (R264, R281). -/
def Store.elemIx (t : Store) (half h u d : Nat) : Nat := half * t.H * t.T * t.D + (h * t.T + u) * t.D + d
def State.kvElem (s : State) (p : Nat) (t : Store) (b : Blk) (l half h u d : Nat) : FV :=
  let ix := t.elemIx half h u d
  match b.fmt with
  | 0 => if t.nfmt = .e4m3 then E4M3.decode (s.blkN p t b 0 l ix 1) else BF16.decode (s.blkN p t b 0 l (2 * ix) 2)
  | 1 => E4M3.decode (s.blkN p t b 0 l ix 1)
  | _ => mxVal (field (s.blkN p t b 0 l (ix / 2) 1) (4 * (ix % 2)) 4) (s.blkN p t b 2 l (ix / 32) 1)
def State.kvScale (s : State) (p : Nat) (t : Store) (b : Blk) (l half h : Nat) : FV :=
  if b.fmt = 1 then FP32.decode (s.blkN p t b 2 l (8 * h + 4 * half) 4) else .fin false 1 1
/-- The exact value with the scale. -/
def State.kvVal (s : State) (p : Nat) (t : Store) (b : Blk) (l half h u d : Nat) : FV :=
  if b.fmt = 1 then (FV.mul (s.kvElem p t b l half h u d) (s.kvScale p t b l half h)).1 else s.kvElem p t b l half h u d

/-- Values written as a run of elements (h, u, ·) of a block in its format (R277, R281): native codes rounded and saturated
(R58), E4M3 under the stored scale, MXFP4 per group of 32. -/
def State.putRun (s : State) (w : Writer) (t : Store) (b : Blk) (l half h u : Nat) (xs : List FV) : State :=
  let ix := t.elemIx half h u 0
  match b.fmt with
  | 0 =>
    if t.nfmt = .e4m3 then
      s.blkPut w t b 0 l ix xs.length (packNat 8 (xs.map fun x => (satTo E4M3 false x).1))
    else s.blkPut w t b 0 l (2 * ix) (2 * xs.length) (packNat 16 (xs.map fun x => (satTo BF16 false x).1))
  | 1 =>
    let sc := s.kvScale w.p t b l half h
    s.blkPut w t b 0 l ix xs.length (packNat 8 (xs.map fun x => (quantE4M3 x sc).1))
  | _ =>
    let gs := chunks 32 8 xs
    let es := gs.map scaleMX
    let cs := ((gs.zip es).map fun g => g.1.map fun x => (quantMX x g.2).1).flatten
    (s.blkPut w t b 0 l (ix / 2) (xs.length / 2) (packNat 4 cs)).blkPut w t b 2 l (ix / 32) es.length (packNat 8 es)

/-- Every layer of a block moved into another (R281): copied unchanged in the same format, else converted. -/
def State.moveData (s : State) (w : Writer) (t : Store) (a b : Blk) : State :=
  (List.range t.L).foldl (fun s l =>
    let s := s.blkPut w t b 1 l 0 8 (s.blkN w.p t a 1 l 0 8)
    if a.fmt = b.fmt then
      (s.blkPut w t b 0 l 0 (t.slotB a.fmt) (s.blkN w.p t a 0 l 0 (t.slotB a.fmt))).blkPut w t b 2 l 0 (t.scaleB a.fmt)
        (s.blkN w.p t a 2 l 0 (t.scaleB a.fmt))
    else
      [0, 1].foldl (fun s half =>
        (List.range t.H).foldl (fun s h =>
          let vals (u : Nat) : List FV := (List.range t.D).map fun d => s.kvVal w.p t a l half h u d
          let s := if b.fmt = 1 then
              s.blkPut w t b 2 l (8 * h + 4 * half) 4 (scaleE4M3 ((List.range t.T).map vals).flatten) else s
          (List.range t.T).foldl (fun s u => s.putRun w t b l half h u (vals u)) s) s) s) s

/-- The page entries of the live slots, all that their block tables hold: slot, index, entry (R266, R267, R275). -/
def State.livePages (s : State) (p : Nat) (t : Store) : List (Nat × Nat × Nat) :=
  (List.range t.slots).flatMap fun slot =>
    if (s.seqN p t slot 1 1).testBit 0 then
      (List.range (s.seqN p t slot 36 4)).map fun pi => (slot, pi, s.pageE p t slot pi)
    else []

/-- The entries that name a block itself, no forward followed. -/
def State.namers (s : State) (p : Nat) (t : Store) (b : Blk) : List (Nat × Nat × Nat) :=
  (s.livePages p t).filter fun e => (t.namedBlk e.2.2).any b.same

/-- The move commit (R274, kind 9): the data stands in the new block, which takes count and class; the old one is forwarded. -/
def State.moveCommit (s : State) (w : Writer) (id : Nat) (a b : Blk) : State :=
  match s.storeOf w.p id with
  | none => s
  | some t => (s.moveData w t a b).commit w { kind := 9, store := id, what := 2 ^ 6, down := a.ref, up := b.ref }

/-- One holder's entry rewritten to the block that a forwarded one leads to (R274, kind 10). -/
def State.rewrite (s : State) (w : Writer) (id : Nat) (t : Store) (a : Blk) (e : Nat × Nat × Nat) : State :=
  let b := s.follow w.p t a
  s.commit w { kind := 10, store := id, what := 1, slot := e.1, page := e.2.1, entry := peOf (s.locOf w.p t b) b (peFill e.2.2) }

/-- A move ended (R274): every holder's entry rewritten, then the release commit (kind 11). -/
def State.moveEnd (s : State) (w : Writer) (id : Nat) (a : Blk) : State :=
  match s.storeOf w.p id with
  | none => s
  | some t =>
    ((s.namers w.p t a).foldl (fun s e => s.rewrite w id t a e) s).commit w { kind := 11, store := id, what := 0, down := a.ref }

/-- Moves under way are ended: no second move of a block starts before (R274). -/
def State.endMoves (s : State) (w : Writer) (id : Nat) : State :=
  match s.storeOf w.p id with
  | none => s
  | some t => t.moves.foldl (fun s r => s.moveEnd w id (t.blkOfRef r)) s

/-- A move from its commit to its release (R274, R281). -/
def State.moveBlock (s : State) (w : Writer) (id : Nat) (a b : Blk) : State := (s.moveCommit w id a b).moveEnd w id a

/-- Whether a block may be moved by the ladder (R280): held, full, unpinned, not forwarded, all of it to be read (R341). -/
def State.movable (s : State) (p : Nat) (t : Store) (b : Blk) : Bool :=
  decide (0 < s.refs p t b) && !(s.meta0 p t b).testBit 44 && !s.fwd p t b && s.blkFull p t b && (s.blkTrouble p t b).isNone

/-- The ladder's levels of a class (R280), and whether any is above F / 64. -/
def Store.level (t : Store) (c off : Nat) : Nat := t.n (208 + 6 * c + off) 2
def Store.ladderDue (t : Store) : Bool :=
  t.ladderOn && ((List.range 8).any fun c => [0, 2, 4].any fun o => decide (t.top 0 < 64 * t.level c o))

/-- The step the ladder takes for a block of class c, and the pool it needs (R280). -/
def Store.ladderStep (t : Store) (c : Nat) (b : Blk) : Option Nat :=
  let F := t.top 0
  let has := fun i => decide (0 < t.pool i 16 4) && decide (0 < t.top i)
  if b.fmt = 0 ∧ b.tier = 0 ∧ t.nfmt ≠ .e4m3 ∧ F < 64 * t.level c 0 ∧ has 1 then some 1
  else if b.tier = 0 ∧ F < 64 * t.level c 2 ∧ has (3 + b.fmt) then some (3 + b.fmt)
  else if b.fmt ≠ 2 ∧ F < 64 * t.level c 4 ∧ has (3 * b.tier + 2) then some (3 * b.tier + 2)
  else none

/-- The ladder's candidates of a class by age, then by id (R280). -/
def State.candidates (s : State) (p : Nat) (t : Store) (c : Nat) : List Blk :=
  let all := ((List.range 6).map fun i => (List.range (t.pool i 16 4)).map fun b => (⟨i % 3, i / 3, b, none⟩ : Blk)).flatten
  let cs := all.filter fun b => field (s.meta0 p t b) 45 3 == c && s.movable p t b
  let le (a b : Blk) : Bool :=
    let x := field (s.meta1 p t a) 0 32
    let y := field (s.meta1 p t b) 0 32
    decide (x < y) || (x == y && decide (a.id ≤ b.id))
  sortBy le cs

/-- LADDER_RUN (R280): the controller ends what moves are under way, then takes candidates from class 7 down to 1, each the
first step that applies, while a level acts. -/
def State.ladder (s : State) (p id : Nat) : State :=
  let s := s.endMoves (ctl p) id
  match s.storeOf p id with
  | none => s
  | some t0 =>
    [7, 6, 5, 4, 3, 2, 1].foldl (fun s c =>
      (s.candidates p t0 c).foldl (fun s b =>
        match s.storeOf p id with
        | none => s
        | some t =>
          if !t.ladderDue || !s.movable p t b then s
          else
            match t.ladderStep c b with
            | none => s
            | some i =>
              match s.popBlock (ctl p) id i c with
              | none => s
              | some (s, nb) => s.moveBlock (ctl p) id b nb) s) s

/-- Alloc under the admission rule (R278, R279): for a launch with a count left it is drawn first, else only above the sum
of reservations. -/
def State.alloc (s : State) (w : Writer) (id : Nat) (launch : Option Nat) (cls : Nat) : Option (State × Blk) :=
  match s.storeOf w.p id with
  | none => none
  | some t =>
    match launch with
    | some l =>
      if 0 < t.left l then
        (s.popBlock w id 0 cls).map fun r =>
          (r.1.updStore w.p id fun t => { t with rsv := t.rsv.map fun x => if x.1 = l then (l, x.2 - 1) else x }, r.2)
      else if t.reserved < t.top 0 then s.popBlock w id 0 cls else none
    | none => if t.reserved < t.top 0 then s.popBlock w id 0 cls else none

/-- The blocks of a store's pools, and its borrowed frames, each once, in the format its entries give it (R267, R271). -/
def Store.poolBlks (t : Store) : List Blk :=
  (List.range 6).flatMap fun i => (List.range (t.pool i 16 4)).map fun b => ⟨i % 3, i / 3, b, none⟩
def State.frameBlks (s : State) (p : Nat) (t : Store) : List Blk :=
  let es := s.livePages p t
  t.lends.map fun x =>
    let b : Blk := ⟨0, 0, x.1, some (x.2.1, x.2.2.1, x.2.2.2)⟩
    match es.find? fun e => (t.namedBlk e.2.2).any b.same with
    | some e => { b with fmt := peFmt e.2.2 }
    | none => b

/-- The scrubber's work on one block (R275): a refcount above its holders is lowered, a block with none off the stacks is pushed. -/
def State.scrubBlk (s : State) (p id : Nat) (named : List Blk) (b : Blk) : State :=
  match s.storeOf p id with
  | none => s
  | some t =>
    let n := (named.filter b.same).length
    let s := if n < s.refs p t b then s.putMeta (ctl p) t b 48 16 n else s
    let base := t.pool b.pool 0 8 + t.L * t.pool b.pool 16 4 * (t.slotB b.fmt + 8 + t.scaleB b.fmt)
    let stacked := b.far.isNone && (List.range (t.top b.pool)).any fun j => s.kvN p (base + 4 * j) 4 == b.id
    if s.refs p t b = 0 ∧ !stacked then s.release (ctl p) id b else s

/-- The scrubber (R275): forwarded blocks are rewritten and released, then refcounts above their holders are lowered and unnamed
blocks off the stacks are pushed. -/
def State.scrub (s : State) (p id : Nat) : State :=
  match s.storeOf p id with
  | none => s
  | some t =>
    let s := ((t.poolBlks ++ s.frameBlks p t).filter (s.fwd p t)).foldl (fun s b => s.moveEnd (ctl p) id b) s
    match s.storeOf p id with
    | none => s
    | some t =>
      let named := (s.livePages p t).filterMap fun e => s.heldBlk p t e.2.2
      (t.poolBlks ++ s.frameBlks p t).foldl (fun s b => s.scrubBlk p id named b) s

/-- A store that a scrub is due for (R275). -/
def State.scrubDue (s : State) (p id : Nat) : State :=
  s.updPart p fun x => { x with scrubs := if x.scrubs.contains id then x.scrubs else x.scrubs ++ [id] }

/-- Whether a filer entry or a store-engine operation of a store is in flight (R275). -/
def State.storeBusy (s : State) (p id : Nat) : Bool :=
  let kv (c : EngCmd) : Bool :=
    (c.op == 16 && field c.a.toNat 26 6 == id) || (c.op == 24 && field c.a.toNat 26 6 == id)
  (s.partCores p).any (fun k => ((s.core k).journal.any fun j => field j.hnd.toNat 26 6 == id) || (s.core k).engq.any kv) ||
  s.threads.any fun t => t.p == p && t.state == 1 && kv t.cmd

/-- The elements of one head of one token of native data, as codes in bytes and as exact values. -/
def Store.nativeVals (t : Store) (bs : List Byte) : List FV :=
  if t.nfmt = XFmt.e4m3 then bs.map fun c => E4M3.decode c.toNat
  else (chunks 2 256 bs).map fun c => BF16.decode (bytesNat c)

/-- The native bytes of a head of a token written into a block: unchanged in a native block, else quantised (R277). -/
def State.putNative (s : State) (w : Writer) (t : Store) (b : Blk) (l half h u : Nat) (bs : List Byte) : State :=
  if b.fmt = 0 then s.blkPut w t b 0 l (t.elemIx half h u 0 * t.ebits 0 / 8) bs.length (bytesNat bs)
  else s.putRun w t b l half h u (t.nativeVals bs)

/-- K and V of one layer of one token written into slot u (R277): `data` holds K of every head, then V. -/
def State.putToken (s : State) (w : Writer) (t : Store) (b : Blk) (l u : Nat) (data : List Byte) : State :=
  let hb := t.D * t.ebits 0 / 8
  [0, 1].foldl (fun s half => (List.range t.H).foldl (fun s h =>
    s.putNative w t b l half h u ((data.drop ((half * t.H + h) * hb)).take hb)) s) s

/-- The copy of a split (R256, R277): slots 0 to fill − 1 and their layer-mask bits, every layer. -/
def State.splitCopy (s : State) (w : Writer) (t : Store) (o b : Blk) (fill : Nat) : State :=
  let hb := t.D * t.ebits 0 / 8
  (List.range t.L).foldl (fun (s : State) l =>
    let s := s.blkPut w t b 1 l 0 8 (s.blkN w.p t o 1 l 0 8 % 2 ^ fill)
    [0, 1].foldl (fun s half => (List.range t.H).foldl (fun s h => (List.range fill).foldl (fun s v =>
      if o.fmt = 0 then
        s.blkPut w t b 0 l (t.elemIx half h v 0 * t.ebits 0 / 8) hb (s.blkN w.p t o 0 l (t.elemIx half h v 0 * t.ebits 0 / 8) hb)
      else s.putRun w t b l half h v ((List.range t.D).map fun d => s.kvVal w.p t o l half h v d)) s) s) s) s

/-- A data entry filed (R277): the block found or allocated, the elements written, the commit made (kind 1, or 2 for a split);
none when Alloc gives no block. -/
def State.fileData (s : State) (w : Writer) (j : JEntry) (id : Nat) (t : Store) (slot : Nat) : Option State :=
  let layer := recN j.record 0 1
  let tok := recN j.record 4 4
  let speculative := (recN j.record 24 1).testBit 0
  let pi := tok / t.T
  let u := tok % t.T
  let e := s.pageE w.p t slot pi
  let old := s.heldBlk w.p t e
  let keep := old.any fun b => decide (s.refs w.p t b ≤ 1)
  let fill := if peValid e then peFill e else 0
  let got : Option (State × Blk) :=
    match old, keep with
    | some b, true => some (s, b)
    | _, _ => s.alloc w id j.launch (s.seqN w.p t slot 2 1)
  got.map fun r =>
    let b := r.2
    let s := match old with
      | some o =>
        if !keep then r.1.splitCopy w t o b fill
        else if fill ≤ u then
          (List.range t.L).foldl (fun (s : State) l => s.blkPut w t b 1 l 0 8 (withField (s.blkN w.p t b 1 l 0 8) u 1 0)) r.1
        else r.1
      | none => r.1
    let s := (s.putToken w t b layer u j.data).touch w t b
    let loc := if keep && peLoc e == 3 && s.inTransit w.p t e then 3 else s.locOf w.p t b
    s.commit w {
      kind := if old.isSome && !keep then 2 else 1, store := id, layer := layer, slot := slot, page := pi, u := u,
      what := 1 + (if fill ≤ u then 2 else 0) + 4 + 8 + (if old.isSome && !keep then 16 else 0) + (if keep then 0 else 32),
      entry := peOf loc b (max fill (u + 1)),
      mask := withField (s.maskW w.p t slot pi) u 1 1,
      committed := (let c := s.seqN w.p t slot 4 4; if speculative then c else max c (tok + 1)),
      spec := max (s.seqN w.p t slot 8 4) (tok + 1),
      pages := max (s.seqN w.p t slot 12 4) (pi + 1),
      down := match old with | some o => if keep then noRef else o.ref | none => noRef,
      up := if keep then noRef else b.ref }

/-- Whether an append would split a block that cannot be read whole (R256, R341): it is dropped (log entry 95). -/
def State.splitTrouble (s : State) (p : Nat) (t : Store) (slot pi : Nat) : Bool :=
  (s.heldBlk p t (s.pageE p t slot pi)).any fun b => decide (1 < s.refs p t b) && (s.blkTrouble p t b).isSome

/-- A record that keeps a sequence's lengths but the one given. -/
def State.lengths (s : State) (p : Nat) (t : Store) (slot : Nat) (c : Commit) : Commit :=
  { c with slot := slot, committed := s.seqN p t slot 4 4, spec := s.seqN p t slot 8 4, pages := s.seqN p t slot 12 4 }

/-- The append filer's work on one entry (R277, R278); the entry dropped for want of a block, after one run of the ladder,
answers true. -/
def State.fileEntry (s : State) (p : Nat) (j : JEntry) : State × Bool :=
  let w : Writer := { tag := j.tag, p := p }
  let h := j.hnd.toNat
  let id := field h 26 6
  match s.storeOf p id with
  | none => (s, false)
  | some t =>
    let slot := field h 6 20
    let dropIt (s : State) : State := s.updStore p id fun t => t.put 37 3 (min (t.n 37 3 + 1) (2 ^ 24 - 1))
    let settle1 (s : State) : State := s.seqPut w t slot 32 4 (s.seqN p t slot 32 4 - 1)
    if !(s.seqN p t slot 1 1).testBit 0 || field (s.seqN p t slot 0 1) 0 6 != field h 0 6 then (settle1 (dropIt s), false)
    else
      let tok := recN j.record 4 4
      let fl := recN j.record 24 1
      let pi := tok / t.T
      let below := decide (tok < s.seqN p t slot 8 4)
      if fl.testBit 1 then
        (settle1 (if below then
            let c := s.lengths p t slot { kind := 3, store := id, what := 8 }
            s.commit w { c with committed := max c.committed (tok + 1) }
          else dropIt s), false)
      else if fl.testBit 2 then
        (settle1 (if below then
            s.commit w { kind := 3, store := id, what := 2, slot := slot, page := pi, u := tok % t.T,
                         mask := withField (s.maskW p t slot pi) (tok % t.T) 1 0 }
          else dropIt s), false)
      else if s.splitTrouble p t slot pi then (settle1 (dropIt s), false)
      else
        match s.fileData w j id t slot with
        | some s => (settle1 s, false)
        | none =>
          let s := if t.ladderOn then s.ladder p id else s
          match s.fileData w j id t slot with
          | some s => (settle1 s, false)
          | none => (settle1 (dropIt s), true)

/-- FILER_FILE_ENTRY (R276 to R278): the head of a core's journal is filed or dropped; a drop for want of a block is kept for
the context's KVSYNC. -/
def State.fileHead (s : State) (k : Nat) : State :=
  match (s.core k).journal with
  | [] => s
  | e :: _ =>
    let r := s.fileEntry (s.partOf k) e
    let s := r.1.updCore k fun c => { c with journal := c.journal.tail }
    if r.2 ∧ e.g < 128 then s.updCtx e.g fun x => { x with dropped := some e.hnd.toNat } else s

/-- KVFORK (R265, R266, R270): the new handle, or 0. `src` is the source's slot, or none for the root. The increments come
first, one commit a block; then the pages and masks; the commit that makes the slot live is the last (R273, R274). -/
def State.kvFork (s : State) (w : Writer) (id : Nat) (t : Store) (src : Option Nat) : State × Nat :=
  let p := w.p
  let top := t.n 32 4
  if top = 0 then (s, 0)
  else
    let slot := s.kvN p (t.n 24 8 + 4 * (top - 1)) 4 % 2 ^ 20
    let pages := match src with | some x => s.seqN p t x 12 4 | none => 0
    let es : List (Nat × Nat × Nat) := match src with | some x => (List.range pages).map fun pi => (pi, s.pageE p t x pi, s.maskW p t x pi) | none => []
    let bs := es.filterMap fun e => s.heldBlk p t e.2.1
    let excess := bs.any fun b => decide (65535 < s.refs p t b + (bs.filter b.same).length)
    if excess || decide (s.seqN p t slot 36 4 < pages) then (s, 0)
    else
      let committed := match src with | some x => s.seqN p t x 4 4 | none => 0
      let cls := match src with | some x => s.seqN p t x 2 1 | none => t.newClass
      let s := s.updStore p id fun t => t.put 32 4 (top - 1)
      let s := s.seqPut w t slot 2 1 cls
      let s := bs.foldl (fun s b => s.commit w { kind := 4, store := id, what := 32, slot := slot, up := b.ref }) s
      let s := (List.range (s.seqN p t slot 36 4)).foldl (fun s pi =>
        match es.find? fun e => e.1 == pi with
        | some (_, e, m) =>
          let keepBits := if committed ≤ t.T * pi then 0 else 2 ^ min t.T (committed - t.T * pi)
          s.commit w { kind := 4, store := id, what := 3, slot := slot, page := pi, entry := (if peValid e then e else 0),
                       mask := (if keepBits = 0 then 0 else m % keepBits) }
        | none => if s.maskW p t slot pi = 0 then s else s.commit w { kind := 4, store := id, what := 2, slot := slot, page := pi }) s
      let s := s.commit w { kind := 4, store := id, what := 128 + 8, slot := slot, committed := committed, spec := committed, pages := pages }
      (s, id * 2 ^ 26 + slot * 2 ^ 6 + field (s.seqN p t slot 0 1) 0 6)

/-- The blocks of pages from index lo to hi − 1 lose their holder: each entry cleared in a commit of its own, then the decrements
(R273, R283). -/
def State.dropPages (s : State) (w : Writer) (kind id : Nat) (t : Store) (slot lo hi : Nat) : State :=
  let bs := (List.range (hi - lo)).filterMap fun i => s.heldBlk w.p t (s.pageE w.p t slot (lo + i))
  let s := (List.range (hi - lo)).foldl (fun s i =>
    s.commit w { kind := kind, store := id, what := 1, slot := slot, page := lo + i }) s
  bs.foldl (fun s b => s.commit w { kind := kind, store := id, what := 16, slot := slot, down := b.ref }) s

/-- Lends in flight of a handle's pages from index lo on: the page was removed or moved first (R260). -/
def State.lendsLost (s : State) (p h lo : Nat) : State :=
  let hit (c : EngCmd) : EngCmd := if c.op = 24 ∧ c.a.toNat = h ∧ lo ≤ recN c.record 4 4 then { c with lost := true } else c
  let s := (s.partCores p).foldl (fun (s : State) k => s.updCore k fun x => { x with engq := x.engq.map hit }) s
  { s with threads := s.threads.map fun t => if t.p = p then { t with cmd := hit t.cmd } else t }

/-- A slot's handle as it stands (R217, R265). -/
def State.handleOf (s : State) (p id : Nat) (t : Store) (slot : Nat) : Nat := id * 2 ^ 26 + slot * 2 ^ 6 + field (s.seqN p t slot 0 1) 0 6

/-- KVFREE (R265, and the run of forkdemo): live cleared and the generation advanced, lengths and page count 0, in one commit; then
the blocks drop and the slot is pushed. -/
def State.kvFree (s : State) (w : Writer) (id : Nat) (t : Store) (slot : Nat) : State :=
  let pages := s.seqN w.p t slot 12 4
  let s := s.commit w { kind := 5, store := id, what := 128 + 8, slot := slot }
  let s := s.dropPages w 5 id t slot 0 pages
  let top := match s.storeOf w.p id with | some t => t.n 32 4 | none => 0
  let s := s.kvPutN w (t.n 24 8 + 4 * top) 4 slot
  s.updStore w.p id fun t => t.put 32 4 (top + 1)

/-- KVTRIM (R283), n not above spec: the lengths with the last page's fill and mask in one commit, later masks and entries each in
their own. -/
def State.kvTrim (s : State) (w : Writer) (id : Nat) (t : Store) (slot n : Nat) : State :=
  let p := w.p
  let pages := s.seqN p t slot 12 4
  let np := min pages (ceilDiv n t.T)
  let q := ceilDiv n t.T - 1
  let cut := fun pi => s.maskW p t slot pi % 2 ^ (n - t.T * pi)
  let c : Commit := { kind := 6, store := id, what := 8, slot := slot, committed := min (s.seqN p t slot 4 4) n, spec := n, pages := np }
  let s1 := s.commit w (if 0 < n ∧ q < np then
      let e := s.pageE p t slot q
      { c with what := 11, page := q, entry := withField e 51 7 (min (peFill e) (n - t.T * q)), mask := cut q }
    else c)
  let s1 := (List.range (s.seqN p t slot 36 4)).foldl (fun (s1 : State) pi =>
    if n < t.T * (pi + 1) ∧ s1.maskW p t slot pi ≠ cut pi then
      s1.commit w { kind := 6, store := id, what := 2, slot := slot, page := pi, mask := cut pi }
    else s1) s1
  (s1.dropPages w 6 id t slot np pages).lendsLost p (s.handleOf p id t slot) np

/-- What KVCMPT meets in the blocks it reads (R283, R341): those from the page of its first hole on. -/
def State.compactTrouble (s : State) (p : Nat) (t : Store) (slot : Nat) : Option (Nat × Nat) :=
  match (List.range (s.seqN p t slot 8 4)).find? fun tok => !(s.maskW p t slot (tok / t.T)).testBit (tok % t.T) with
  | none => none
  | some hole =>
    (List.range (s.seqN p t slot 12 4 - hole / t.T)).findSome? fun i =>
      (s.heldBlk p t (s.pageE p t slot (hole / t.T + i))).bind (s.blkTrouble p t)

/-- n blocks from Alloc, all or none (R283). -/
def State.allocN (s : State) (w : Writer) (id : Nat) (launch : Option Nat) (cls n : Nat) : Option (State × List Blk) :=
  (List.range n).foldl (fun (a : Option (State × List Blk)) _ =>
    match a with
    | none => none
    | some (s, bs) => (s.alloc w id launch cls).map fun r => (r.1, bs ++ [r.2])) (some (s, []))

/-- One page of a compaction (R283): tokens `part` of the sequence as it stood in `old`, rewritten into slots 0, 1, … of block b with
their layer bits, then the page's own commit. -/
def State.compactPage (s : State) (w : Writer) (id : Nat) (t : Store) (slot : Nat) (old : State) (page : Nat) (part : List Nat) (b : Blk) : State :=
  let p := w.p
  let s := part.zipIdx.foldl (fun s tu =>
    match old.heldBlk p t (old.pageE p t slot (tu.1 / t.T)) with
    | none => s
    | some o =>
      (List.range t.L).foldl (fun s l =>
        let s := if (old.blkN p t o 1 l 0 8).testBit (tu.1 % t.T) then s.blkPut w t b 1 l 0 8 (withField (s.blkN p t b 1 l 0 8) tu.2 1 1) else s
        [0, 1].foldl (fun s half => (List.range t.H).foldl (fun s h =>
          s.putRun w t b l half h tu.2 ((List.range t.D).map fun d => old.kvVal p t o l half h (tu.1 % t.T) d)) s) s) s) s
  s.commit w { kind := 7, store := id, what := 1 + 2 + 32, slot := slot, page := page, entry := peOf 0 b part.length, mask := 2 ^ part.length - 1, up := b.ref }

/-- KVCMPT (R283): none when a block is wanting. Tokens are kept by their sequence mask; layer bits travel with them. -/
def State.kvCompact (s : State) (w : Writer) (id : Nat) (t : Store) (slot : Nat) (launch : Option Nat) : Option State :=
  let p := w.p
  let spec := s.seqN p t slot 8 4
  let valid := fun tok => (s.maskW p t slot (tok / t.T)).testBit (tok % t.T)
  match (List.range spec).find? fun tok => !valid tok with
  | none => some s
  | some hole =>
    let p0 := hole / t.T
    let toks := ((List.range spec).drop (t.T * p0)).filter valid
    let need := ceilDiv toks.length t.T
    let cls := s.seqN p t slot 2 1
    match s.allocN w id launch cls need with
    | none => none
    | some (s1, bs) =>
      let olds := (List.range (s.seqN p t slot 12 4 - p0)).filterMap fun i => s.heldBlk p t (s.pageE p t slot (p0 + i))
      let s1 := (bs.zipIdx).foldl (fun s1 bi => s1.compactPage w id t slot s (p0 + bi.2) ((toks.drop (t.T * bi.2)).take t.T) bi.1) s1
      let s1 := (List.range (s.seqN p t slot 12 4 - (p0 + need))).foldl (fun (s1 : State) i =>
        s1.commit w { kind := 7, store := id, what := 3, slot := slot, page := p0 + need + i }) s1
      let lost := fun n => ((List.range n).filter fun tok => !valid tok).length
      let committed := s.seqN p t slot 4 4
      let nspec := spec - lost spec
      let s1 := s1.commit w { kind := 8, store := id, what := 8, slot := slot, committed := committed - lost committed, spec := nspec,
                              pages := ceilDiv nspec t.T }
      let s1 := olds.foldl (fun s1 b => s1.commit w { kind := 8, store := id, what := 16, slot := slot, down := b.ref }) s1
      some (s1.lendsLost p (s.handleOf p id t slot) p0)

/-- The block that KVDEM of a page to a format moves (R217, R281), if it does not leave the page as it is. -/
def State.demoteOf (s : State) (p : Nat) (t : Store) (slot pi fmt : Nat) : Option Blk :=
  let e := s.pageE p t slot pi
  (s.blockOf p t e).filter fun b =>
    let level := if b.fmt = 0 ∧ t.nfmt = .e4m3 then 1 else b.fmt
    b.far.isNone && b.tier == 0 && decide (level < fmt) && s.blkFull p t b && peLoc e == 0

/-- KVDEM of a page to a format (R257, R281): none when the target pool is empty. It answers after its last commit (R274). -/
def State.kvDemote (s : State) (w : Writer) (id : Nat) (t : Store) (slot pi fmt : Nat) : Option State :=
  let s1 := s.endMoves w id
  match s1.demoteOf w.p t slot pi fmt with
  | none => some s
  | some b => (s1.popBlock w id fmt (field (s1.meta0 w.p t b) 45 3)).map fun r => r.1.moveBlock w id b r.2

/-- A block's move to tier 0 in its format (R284), or a borrowed frame's way home (R282), up to the move commit: none when no block
is free, or it cannot be read whole (R341). -/
def State.promoteCommit (s : State) (p id : Nat) (b : Blk) : Option State :=
  match s.storeOf p id with
  | none => none
  | some t =>
    if (s.blkTrouble p t b).isSome then none
    else (s.popBlock (ctl p) id b.fmt (field (s.meta0 p t b) 45 3)).map fun r => r.1.moveCommit (ctl p) id b r.2

/-- The whole of that move. -/
def State.promoteBlock (s : State) (p id : Nat) (b : Blk) : Option State := (s.promoteCommit p id b).map fun s => s.moveEnd (ctl p) id b

end Sys2Proof.Machine
end

