-- ==== Sys2Proof/Machine/ArrayOps.lean ====
section
/-! DEFINITION. The array slot at issue: descriptors, checks, and the entries handed to the halyard (R159 to R187). -/

namespace Sys2Proof.Machine

/-- A bundle whose array slot finds the queue of 16 full blocks (R163). -/
def arrWait (e : Env) (s : State) : Option State := if 16 ≤ (s.core e.k).halyard.length then some s else none

/-- An entry joins the halyard's queue (R163). -/
def Env.queueEntry (e : Env) (s : State) (h : HEntry) : State :=
  s.updCore e.k fun c => { c with halyard := c.halyard ++ [{ h with id := c.nextEntry, c := e.c, pc := e.pc }], nextEntry := c.nextEntry + 1 }

/-- The tiles an instruction names must be owned, and c(6p) too where it uses the carry (R159). -/
def Env.tilesOwned (e : Env) (tile cnt : Nat) (carry : Bool) : Bool :=
  e.core.owns e.c ((List.range cnt).map fun i => tile + i) && (!carry || e.core.owns e.c [6 * (tile / 6)])

/-- TDESC (R162). -/
def tdescOp (td : BitVec 4) (sa : BitVec 6) : SlotOp :=
  { reads := fun _ => [sKey sa.toNat]
    issue := fun e s =>
      match e.pre.localCheck e.g (e.S sa) 64 64 with
      | some t => .error (e.trap t (e.S sa))
      | none =>
        let d := BitVec.ofNat 512 (Mem.readN e.core.ram (e.S sa).toNat 64)
        if tdOk d then .ok (s.updCtx e.g fun c => { c with td := Tab.set 0 c.td td.toNat d }) else .error (e.trap .illegalOperand) }

/-- CPAT (R170). -/
def cpatOp (sa : BitVec 6) : SlotOp :=
  { reads := fun _ => [sKey sa.toNat], issue := fun e s => .ok (s.updCtx e.g fun c => { c with cpat := (e.S sa).setWidth 32 }) }

/-- The checks of MMA and MMAP in R168's order. -/
def mmaCheck (e : Env) (tile cnt : Nat) (ta tb : BitVec 512) (ck allMadd : Bool) : Option (TrapCode × Word) :=
  let i8a := tdFmt ta == .i8
  let i8b := tdFmt tb == .i8
  if !e.tilesOwned tile cnt false then some (.access, 0)
  else if tdKind ta != 1 || tdKind tb != 2 || tdK ta != tdK tb || i8a != i8b ||
      !(decide (64 * (tile % 6) ≤ tdCol tb) && decide (tdCol tb + tdCols tb ≤ 64 * (tile % 6 + cnt))) then some (.illegalOperand, 0)
  else if ck && !allMadd then some (.illegalOperand, 0)
  else e.pre.rangesCheck e.g 1 (tdRanges ta)

/-- MMA and MMAP (R168, R169): the entry captures both descriptors and, for MMAP, the pattern. -/
def mmaEntry (op : Nat) (tile ta tb : BitVec 4) (pat : Env → BitVec 32) (cnt : BitVec 4) (z ck : Bool) : SlotOp :=
  { wait := arrWait
    issue := fun e s =>
      let a := Tab.get 0 e.ctx.td ta.toNat
      let b := Tab.get 0 e.ctx.td tb.toNat
      match mmaCheck e tile.toNat (cnt.toNat + 1) a b ck (pat e == 0) with
      | some (t, addr) => .error (e.trap t addr)
      | none =>
        .ok (e.queueEntry s { id := 0, c := 0, op := op, tile := tile.toNat, cnt := cnt.toNat + 1, ta := a, tb := b, pat := pat e, z := z, ck := ck }) }

/-- A cell operation in every step of the pattern. -/
def opPattern (op : CellOp) : BitVec 32 :=
  match op with
  | .madd => 0
  | .abda => 0x55555555
  | .sqda => 0xAAAAAAAA
  | .maxp => 0xFFFFFFFF

def mmaOp (tile ta tb : BitVec 4) (op : CellOp) (cnt : BitVec 4) (z ck : Bool) := mmaEntry 2 tile ta tb (fun _ => opPattern op) cnt z ck
def mmapOp (tile ta tb : BitVec 4) (cnt : BitVec 4) (z ck : Bool) := mmaEntry 3 tile ta tb (fun e => e.ctx.cpat) cnt z ck

/-- MZERO (R172). -/
def mzeroOp (tile cnt : BitVec 4) : SlotOp :=
  { wait := arrWait
    issue := fun e s =>
      if e.tilesOwned tile.toNat (cnt.toNat + 1) false then
        .ok (e.queueEntry s { id := 0, c := 0, op := 5, tile := tile.toNat, cnt := cnt.toNat + 1 })
      else .error (e.trap .access) }

/-- Whether a drain's target fits a tile's type (R173). -/
def drainTarget (f : XFmt) (int : Bool) : Bool :=
  match f with
  | .fp32 | .bf16 | .fp16 | .e4m3 | .e5m2 | .e2m1 | .mxfp4 | .sx7 | .sx4 | .sx2 => !int
  | .i32 | .i16 | .i8 => int
  | .n32 | .n16 | .n8 => false

/-- Scratchpad rows that an array entry of a segment will write enter the undo log (R353). -/
def Env.entryLog (e : Env) (s : State) (a len : Nat) : Except Trap State :=
  match s.logRam e.g a len true with
  | none => .error (e.trap .segOverflow)
  | some s => .ok s

/-- MDRAIN (R173, R175). Its checks are made in the order of R168: ACCESS, then ILLEGAL_OPERAND, then the range (log entry 89). -/
def mdrainOp (tile : BitVec 4) (f : XFmt) (sa : BitVec 6) (cnt : BitVec 4) (codec : BitVec 2) (stat chk : Bool) : SlotOp :=
  { reads := fun _ => [sKey sa.toNat], wait := arrWait
    issue := fun e s =>
      let ts := (List.range (cnt.toNat + 1)).map fun i => tile.toNat + i
      let st := e.core.projected e.c
      let len := drainLen f codec.toNat (cnt.toNat + 1)
      if !e.tilesOwned tile.toNat (cnt.toNat + 1) false then .error (e.trap .access)
      else if !(ts.all fun t => drainTarget f (st.int.getLsbD t)) ||
          (chk && ts.any fun t => st.int.getLsbD t != st.zeroInt.getLsbD t) ||
          (codec != 0 && (f == .fp32 || f == .i32)) then .error (e.trap .illegalOperand)
      else
        match e.pre.localCheck e.g (e.S sa) 256 len with
        | some t => .error { e.trap t (e.S sa) with isWrite := true }
        | none =>
          (e.entryLog s (e.S sa).toNat len).map fun s =>
            e.queueEntry s { id := 0, c := 0, op := 6, tile := tile.toNat, cnt := cnt.toNat + 1, addr := (e.S sa).toNat, fmt := xfmtNum f
                             codec := codec.toNat, stat := stat, ck := chk } }

/-- MBOOM (R178), its checks in the order of R168 (log entry 89). -/
def mboomEntry (op : Nat) (tile : BitVec 4) (sa : BitVec 6) (cnt : BitVec 4) : SlotOp :=
  { reads := fun _ => [sKey sa.toNat], wait := arrWait
    issue := fun e s =>
      let n := cnt.toNat + 1
      let st := e.core.projected e.c
      let len := boomLen op n
      if !e.tilesOwned tile.toNat n (decide (4 ≤ op)) then .error (e.trap .access)
      else if (List.range n).any fun i => st.int.getLsbD (tile.toNat + i) then .error (e.trap .illegalOperand)
      else
        match (if len = 0 then none else e.pre.localCheck e.g (e.S sa) 256 len) with
        | some t => .error { e.trap t (e.S sa) with isWrite := decide (op ≤ 1) || op == 7 }
        | none =>
          let h : HEntry := { id := 0, c := 0, op := 7, sub := op, tile := tile.toNat, cnt := n, addr := (e.S sa).toNat }
          ((h.writeRanges).foldl (fun r w => r.bind fun s => e.entryLog s w.1 w.2) (Except.ok s)).map fun s => e.queueEntry s h }
def mboomRmaxOp := mboomEntry 0
def mboomRsumOp := mboomEntry 1
def mboomRscaleOp := mboomEntry 2
def mboomCscaleOp := mboomEntry 3
def mboomSexpOp := mboomEntry 4
def mboomNormOp (tile cnt : BitVec 4) := mboomEntry 5 tile 0 cnt
def mboomCzeroOp (tile cnt : BitVec 4) := mboomEntry 6 tile 0 cnt
def mboomRstatOp := mboomEntry 7

/-- ATTN (R179 to R181): resolved at stage 3, its checks in R180's order. -/
def attnOp (tile tq : BitVec 4) (sh sr : BitVec 6) : SlotOp :=
  { reads := fun _ => [sKey sh.toNat, sKey sr.toNat], fenceIf := true, wait := arrWait
    issue := fun e s =>
      let r := (e.S sr).toNat
      let q := Tab.get 0 e.ctx.td tq.toNat
      if e.regs.inSeg ∨ field r 48 2 ≠ 0 ∨ (e.S sh).toNat / 2 ^ 32 ≠ 0 ∨ tdKind q ≠ 3 then .error (e.trap .illegalOperand)
      else
        match e.pre.handle e.p (e.S sh).toNat with
        | none => .error (e.kvTrap 1 (e.S sh))
        | some (_, t, _) =>
          if t.L ≤ field r 56 8 ∨ t.H ≤ field r 50 6 then .error (e.kvTrap 2 (e.S sh))
          else if tdK q ≠ t.D then .error (e.kvTrap 3 (e.S sh))
          else if !e.tilesOwned tile.toNat (ceilDiv t.D 64 + 1) true then .error (e.trap .access)
          else
            match e.pre.rangesCheck e.g 1 (tdRanges q) with
            | some (c, addr) => .error (e.trap c addr)
            | none =>
              .ok (e.queueEntry s { id := 0, c := 0, op := 8, tile := tile.toNat, cnt := ceilDiv t.D 64 + 1, ta := q, hnd := e.S sh, range := e.S sr
                                    pi0 := field r 23 23 / t.T, gen := field (e.S sh).toNat 0 6 }) }

/-- ACARRY (R186). -/
def acarryExpOp (tile : BitVec 4) (l : Bool) (j : BitVec 2) (row : BitVec 6) : SlotOp :=
  { writes := fun e => e.rowKeys [row], wait := arrWait
    issue := fun e s =>
      if !e.tilesOwned tile.toNat 1 true then .error (e.trap .access)
      else
        let s := s.updCtx e.g fun c => { c with busy := Tab.set 0 c.busy (rowKey (e.dst row)) 1 }
        .ok (e.queueEntry s { id := 0, c := 0, op := 9, sub := 0, tile := tile.toNat, z := l, cnt := j.toNat, dest := e.dst row }) }
def acarryImpOp (tile : BitVec 4) (l : Bool) (j : BitVec 2) (row : BitVec 6) : SlotOp :=
  { reads := fun e => e.rowKeys [row], queues := queueCodes [row], wait := arrWait
    issue := fun e s =>
      match e.src 0 row with
      | .error t => .error t
      | .ok v =>
        if !e.tilesOwned tile.toNat 1 true then .error (e.trap .access)
        else .ok (e.queueEntry s { id := 0, c := 0, op := 9, sub := 1, tile := tile.toNat, z := l, cnt := j.toNat, row := v }) }

/-- MSTAT (R187): its destination is busy until the entry runs. -/
def mstatOp (sa : BitVec 6) (item : BitVec 4) : SlotOp :=
  { writes := fun _ => [sKey sa.toNat], wait := arrWait
    issue := fun e s =>
      let s := if sa = 0 then s else s.updCtx e.g fun c => { c with busy := Tab.set 0 c.busy (sKey sa.toNat) 1 }
      .ok (e.queueEntry s { id := 0, c := 0, op := 10, sub := item.toNat, dest := sa.toNat }) }

end Sys2Proof.Machine
end

