-- ==== Sys2Proof/WellFormed.lean ====
section
/-! DEFINITION. Well-formed instructions: those whose fields the encoding tables accept. -/

namespace Sys2Proof

/-- An instruction whose every field passes the decode checks of R12. Events of the part carry no encoding and are
well-formed as they stand (log entry 5). -/
def Instr.wellFormed (i : Instr) : Bool := legal i

end Sys2Proof
end

