-- ==== Sys2Proof/Decode.lean ====
section
/-! DEFINITION. The decoder of a bundle: slot words, port counts and plans (R8 to R33), and the encoder of a slot word. -/

namespace Sys2Proof

/-- Why decode refuses a bundle (R12, R19). -/
inductive DecErr
  | illegalOp | illegalOperand | illegalBundle
deriving DecidableEq, Repr

/-- What a slot word decodes to: nothing (a NOP), or an instruction. -/
abbrev Dec := Except DecErr Instr

/-- Bits [lo+n-1:lo] of a slot word. -/
def bits (w lo n : Nat) : Nat := w / 2 ^ lo % 2 ^ n

/-- An instruction whose zero fields are zero and whose fields are legal; else ILLEGAL_OPERAND (R12). -/
def accept (zeros : Bool) (i : Instr) : Dec :=
  if zeros && i.wellFormed then .ok i else .error .illegalOperand

/-- Codes of the enumerated fields (R26, R27, R29, R30, R32); a code outside the list is refused before. -/
def Cond.ofCode : Nat → Cond
  | 0 => .eq | 1 => .ne | 2 => .lt | 3 => .ge | 4 => .le | 5 => .gt | 6 => .ltn | 7 => .gen | 8 => .len | 9 => .gtn
  | 10 => .bits | 11 => .nbits | 12 => .un | _ => .ord
def Cond.code : Cond → Nat
  | .eq => 0 | .ne => 1 | .lt => 2 | .ge => 3 | .le => 4 | .gt => 5 | .ltn => 6 | .gen => 7 | .len => 8 | .gtn => 9
  | .bits => 10 | .nbits => 11 | .un => 12 | .ord => 13
def VFmt.ofCode : Nat → VFmt
  | 0 => .fp32 | 1 => .bf16 | 2 => .fp16 | 3 => .i32 | 4 => .i16 | 5 => .i8 | 6 => .n32 | _ => .n8
def VFmt.code : VFmt → Nat
  | .fp32 => 0 | .bf16 => 1 | .fp16 => 2 | .i32 => 3 | .i16 => 4 | .i8 => 5 | .n32 => 6 | .n8 => 7
def XFmt.ofCode : Nat → XFmt
  | 0 => .fp32 | 1 => .bf16 | 2 => .fp16 | 3 => .e4m3 | 4 => .e5m2 | 5 => .e2m1 | 6 => .mxfp4 | 7 => .sx7 | 8 => .sx4
  | 9 => .sx2 | 10 => .i32 | 11 => .i16 | 12 => .i8 | 13 => .n32 | 14 => .n16 | _ => .n8
def XFmt.code : XFmt → Nat
  | .fp32 => 0 | .bf16 => 1 | .fp16 => 2 | .e4m3 => 3 | .e5m2 => 4 | .e2m1 => 5 | .mxfp4 => 6 | .sx7 => 7 | .sx4 => 8
  | .sx2 => 9 | .i32 => 10 | .i16 => 11 | .i8 => 12 | .n32 => 13 | .n16 => 14 | .n8 => 15
def Pol.ofCode : Nat → Pol
  | 0 => .si | 1 => .wi | 2 => .wt | _ => .own
def Pol.code : Pol → Nat
  | .si => 0 | .wi => 1 | .wt => 2 | .own => 3
def AtomFn.ofCode : Nat → AtomFn
  | 0 => .add | 1 => .min | 2 => .max | 3 => .minn | 4 => .maxn | 5 => .and | 6 => .or | 7 => .xor | 8 => .xchg
  | 9 => .cas | _ => .fadd
def AtomFn.code : AtomFn → Nat
  | .add => 0 | .min => 1 | .max => 2 | .minn => 3 | .maxn => 4 | .and => 5 | .or => 6 | .xor => 7 | .xchg => 8
  | .cas => 9 | .fadd => 10
def CellOp.ofCode : Nat → CellOp
  | 0 => .madd | 1 => .abda | 2 => .sqda | _ => .maxp
def CellOp.code : CellOp → Nat
  | .madd => 0 | .abda => 1 | .sqda => 2 | .maxp => 3

/-- The slot a vector instruction stands in (R8). -/
def VSlot.slot : VSlot → Nat
  | .va => 2 | .vb => 3

/-- WAIT, by its kind (R22). -/
def decodeWait (w : Nat) : Dec :=
  match bits w 16 3 with
  | 0 => accept (bits w 0 1 == 0) (.waitCtrGe (BitVec.ofNat 3 (bits w 13 3)) (BitVec.ofNat 6 (bits w 7 6)) (BitVec.ofNat 6 (bits w 1 6)))
  | 1 => accept (bits w 0 1 == 0) (.waitWpGe (BitVec.ofNat 3 (bits w 13 3)) (BitVec.ofNat 6 (bits w 7 6)) (BitVec.ofNat 6 (bits w 1 6)))
  | 2 => accept (bits w 0 7 == 0) (.waitCoDone (BitVec.ofNat 3 (bits w 13 3)) (BitVec.ofNat 6 (bits w 7 6)))
  | 3 => accept (bits w 0 7 == 0 && bits w 13 3 == 0) (.waitBanks (BitVec.ofNat 6 (bits w 7 6)))
  | 4 => accept (bits w 0 7 == 0 && bits w 13 3 == 0) (.waitTiles (BitVec.ofNat 6 (bits w 7 6)))
  | 5 => accept (bits w 0 7 == 0 && bits w 13 3 == 0) (.waitQne (BitVec.ofNat 6 (bits w 7 6)))
  | 6 => accept (bits w 0 7 == 0 && bits w 13 3 == 0) (.waitTime (BitVec.ofNat 6 (bits w 7 6)))
  | _ => .error .illegalOperand

/-- The control slot with cop not 0 (R22). -/
def decodeCtl (w : Nat) : Dec :=
  match bits w 19 5 with
  | 1 => accept (true) (.bra (BitVec.ofNat 19 (bits w 0 19)))
  | 2 => accept (true) (.brc (BitVec.ofNat 4 (bits w 15 4)) (BitVec.ofNat 15 (bits w 0 15)))
  | 3 => accept (true) (.brm (BitVec.ofNat 4 (bits w 15 4)) (BitVec.ofNat 4 (bits w 11 4)) (BitVec.ofNat 4 (bits w 7 4)) (BitVec.ofNat 4 (bits w 3 4)) (BitVec.ofNat 3 (bits w 0 3)))
  | 4 => accept (bits w 3 16 == 0) (.brr (BitVec.ofNat 3 (bits w 0 3)))
  | 5 => accept (true) (.call (BitVec.ofNat 19 (bits w 0 19)))
  | 6 => accept (bits w 3 16 == 0) (.callr (BitVec.ofNat 3 (bits w 0 3)))
  | 7 => accept (bits w 0 19 == 0) (.ret)
  | 8 => accept (true) (.loop (BitVec.ofNat 6 (bits w 13 6)) (BitVec.ofNat 13 (bits w 0 13)))
  | 9 => decodeWait w
  | 10 => accept (bits w 0 19 == 0) (.yield)
  | 11 => accept (bits w 0 19 == 0) (.done)
  | 12 => accept (bits w 8 11 == 0) (.trap (BitVec.ofNat 8 (bits w 0 8)))
  | 13 => accept (bits w 0 19 == 0) (.eret)
  | 14 => accept (bits w 16 3 == 0) (.segb (BitVec.ofNat 16 (bits w 0 16)))
  | 15 => accept (bits w 0 19 == 0) (.sege)
  | 16 => accept (bits w 8 11 == 0) (.rdv (BitVec.ofNat 8 (bits w 0 8)))
  | 17 => accept (bits w 8 11 == 0) (.bkpt (BitVec.ofNat 8 (bits w 0 8)))
  | 18 => accept (bits w 3 16 == 0) (.phase (BitVec.ofNat 3 (bits w 0 3)))
  | _ => .error .illegalOp

/-- The scalar slot (R25). -/
def decodeSca (w : Nat) : Dec :=
  match bits w 22 6 with
  | 1 => accept (bits w 0 4 == 0) (.add (BitVec.ofNat 6 (bits w 16 6)) (BitVec.ofNat 6 (bits w 10 6)) (BitVec.ofNat 6 (bits w 4 6)))
  | 2 => accept (bits w 0 4 == 0) (.sub (BitVec.ofNat 6 (bits w 16 6)) (BitVec.ofNat 6 (bits w 10 6)) (BitVec.ofNat 6 (bits w 4 6)))
  | 3 => accept (bits w 0 4 == 0) (.mul (BitVec.ofNat 6 (bits w 16 6)) (BitVec.ofNat 6 (bits w 10 6)) (BitVec.ofNat 6 (bits w 4 6)))
  | 4 => accept (bits w 0 4 == 0) (.mulh (BitVec.ofNat 6 (bits w 16 6)) (BitVec.ofNat 6 (bits w 10 6)) (BitVec.ofNat 6 (bits w 4 6)))
  | 5 => accept (bits w 0 4 == 0) (.mulhn (BitVec.ofNat 6 (bits w 16 6)) (BitVec.ofNat 6 (bits w 10 6)) (BitVec.ofNat 6 (bits w 4 6)))
  | 6 => accept (bits w 0 4 == 0) (.div (BitVec.ofNat 6 (bits w 16 6)) (BitVec.ofNat 6 (bits w 10 6)) (BitVec.ofNat 6 (bits w 4 6)))
  | 7 => accept (bits w 0 4 == 0) (.divn (BitVec.ofNat 6 (bits w 16 6)) (BitVec.ofNat 6 (bits w 10 6)) (BitVec.ofNat 6 (bits w 4 6)))
  | 8 => accept (bits w 0 4 == 0) (.rem (BitVec.ofNat 6 (bits w 16 6)) (BitVec.ofNat 6 (bits w 10 6)) (BitVec.ofNat 6 (bits w 4 6)))
  | 9 => accept (bits w 0 4 == 0) (.remn (BitVec.ofNat 6 (bits w 16 6)) (BitVec.ofNat 6 (bits w 10 6)) (BitVec.ofNat 6 (bits w 4 6)))
  | 10 => accept (bits w 0 4 == 0) (.and (BitVec.ofNat 6 (bits w 16 6)) (BitVec.ofNat 6 (bits w 10 6)) (BitVec.ofNat 6 (bits w 4 6)))
  | 11 => accept (bits w 0 4 == 0) (.or (BitVec.ofNat 6 (bits w 16 6)) (BitVec.ofNat 6 (bits w 10 6)) (BitVec.ofNat 6 (bits w 4 6)))
  | 12 => accept (bits w 0 4 == 0) (.xor (BitVec.ofNat 6 (bits w 16 6)) (BitVec.ofNat 6 (bits w 10 6)) (BitVec.ofNat 6 (bits w 4 6)))
  | 13 => accept (bits w 0 4 == 0) (.andn (BitVec.ofNat 6 (bits w 16 6)) (BitVec.ofNat 6 (bits w 10 6)) (BitVec.ofNat 6 (bits w 4 6)))
  | 14 => accept (bits w 0 4 == 0) (.shl (BitVec.ofNat 6 (bits w 16 6)) (BitVec.ofNat 6 (bits w 10 6)) (BitVec.ofNat 6 (bits w 4 6)))
  | 15 => accept (bits w 0 4 == 0) (.shr (BitVec.ofNat 6 (bits w 16 6)) (BitVec.ofNat 6 (bits w 10 6)) (BitVec.ofNat 6 (bits w 4 6)))
  | 16 => accept (bits w 0 4 == 0) (.sra (BitVec.ofNat 6 (bits w 16 6)) (BitVec.ofNat 6 (bits w 10 6)) (BitVec.ofNat 6 (bits w 4 6)))
  | 17 => accept (bits w 0 4 == 0) (.min (BitVec.ofNat 6 (bits w 16 6)) (BitVec.ofNat 6 (bits w 10 6)) (BitVec.ofNat 6 (bits w 4 6)))
  | 18 => accept (bits w 0 4 == 0) (.max (BitVec.ofNat 6 (bits w 16 6)) (BitVec.ofNat 6 (bits w 10 6)) (BitVec.ofNat 6 (bits w 4 6)))
  | 19 => accept (bits w 0 4 == 0) (.minn (BitVec.ofNat 6 (bits w 16 6)) (BitVec.ofNat 6 (bits w 10 6)) (BitVec.ofNat 6 (bits w 4 6)))
  | 20 => accept (bits w 0 4 == 0) (.maxn (BitVec.ofNat 6 (bits w 16 6)) (BitVec.ofNat 6 (bits w 10 6)) (BitVec.ofNat 6 (bits w 4 6)))
  | 21 => accept (bits w 0 10 == 0) (.clz (BitVec.ofNat 6 (bits w 16 6)) (BitVec.ofNat 6 (bits w 10 6)))
  | 22 => accept (bits w 0 10 == 0) (.popc (BitVec.ofNat 6 (bits w 16 6)) (BitVec.ofNat 6 (bits w 10 6)))
  | 23 => accept (true) (.sel (BitVec.ofNat 6 (bits w 16 6)) (BitVec.ofNat 6 (bits w 10 6)) (BitVec.ofNat 6 (bits w 4 6)) (BitVec.ofNat 4 (bits w 0 4)))
  | 24 => accept (true) (.addi (BitVec.ofNat 6 (bits w 16 6)) (BitVec.ofNat 6 (bits w 10 6)) (BitVec.ofNat 10 (bits w 0 10)))
  | 25 => accept (true) (.andi (BitVec.ofNat 6 (bits w 16 6)) (BitVec.ofNat 6 (bits w 10 6)) (BitVec.ofNat 10 (bits w 0 10)))
  | 26 => accept (true) (.ori (BitVec.ofNat 6 (bits w 16 6)) (BitVec.ofNat 6 (bits w 10 6)) (BitVec.ofNat 10 (bits w 0 10)))
  | 27 => accept (true) (.xori (BitVec.ofNat 6 (bits w 16 6)) (BitVec.ofNat 6 (bits w 10 6)) (BitVec.ofNat 10 (bits w 0 10)))
  | 28 => accept (bits w 6 4 == 0) (.shli (BitVec.ofNat 6 (bits w 16 6)) (BitVec.ofNat 6 (bits w 10 6)) (BitVec.ofNat 6 (bits w 0 6)))
  | 29 => accept (bits w 6 4 == 0) (.shri (BitVec.ofNat 6 (bits w 16 6)) (BitVec.ofNat 6 (bits w 10 6)) (BitVec.ofNat 6 (bits w 0 6)))
  | 30 => accept (bits w 6 4 == 0) (.srai (BitVec.ofNat 6 (bits w 16 6)) (BitVec.ofNat 6 (bits w 10 6)) (BitVec.ofNat 6 (bits w 0 6)))
  | 31 => accept (true) (.li (BitVec.ofNat 6 (bits w 16 6)) (BitVec.ofNat 16 (bits w 0 16)))
  | 32 => accept (true) (.lis (BitVec.ofNat 6 (bits w 16 6)) (BitVec.ofNat 16 (bits w 0 16)))
  | 33 => accept (true) (.adds (BitVec.ofNat 6 (bits w 16 6)) (BitVec.ofNat 6 (bits w 10 6)) (BitVec.ofNat 6 (bits w 4 6)) (BitVec.ofNat 4 (bits w 0 4)))
  | 34 => accept (bits w 0 3 == 0 && decide (bits w 15 4 < 14)) (.cmp (BitVec.ofNat 3 (bits w 19 3)) (Cond.ofCode (bits w 15 4)) (BitVec.ofNat 6 (bits w 9 6)) (BitVec.ofNat 6 (bits w 3 6)))
  | 35 => accept (decide (bits w 15 4 < 14)) (.cmpi (BitVec.ofNat 3 (bits w 19 3)) (Cond.ofCode (bits w 15 4)) (BitVec.ofNat 6 (bits w 9 6)) (BitVec.ofNat 9 (bits w 0 9)))
  | 36 => accept (bits w 0 11 == 0) (.pand (BitVec.ofNat 3 (bits w 19 3)) (BitVec.ofNat 4 (bits w 15 4)) (BitVec.ofNat 4 (bits w 11 4)))
  | 37 => accept (bits w 0 11 == 0) (.por (BitVec.ofNat 3 (bits w 19 3)) (BitVec.ofNat 4 (bits w 15 4)) (BitVec.ofNat 4 (bits w 11 4)))
  | 38 => accept (bits w 0 11 == 0) (.pxor (BitVec.ofNat 3 (bits w 19 3)) (BitVec.ofNat 4 (bits w 15 4)) (BitVec.ofNat 4 (bits w 11 4)))
  | 39 => accept (bits w 0 6 == 0) (.setx (BitVec.ofNat 2 (bits w 20 2)) (BitVec.ofNat 6 (bits w 14 6)) (BitVec.ofNat 8 (bits w 6 8)))
  | 40 => accept (bits w 0 13 == 0) (.movbt (BitVec.ofNat 3 (bits w 19 3)) (BitVec.ofNat 6 (bits w 13 6)))
  | 41 => accept (bits w 0 13 == 0) (.mfbt (BitVec.ofNat 6 (bits w 16 6)) (BitVec.ofNat 3 (bits w 13 3)))
  | 42 => accept (bits w 12 4 == 0) (.mfc (BitVec.ofNat 6 (bits w 16 6)) (BitVec.ofNat 12 (bits w 0 12)))
  | 43 => accept (bits w 12 4 == 0) (.mtc (BitVec.ofNat 12 (bits w 0 12)) (BitVec.ofNat 6 (bits w 16 6)))
  | 44 => accept (bits w 0 4 == 0) (.fadd (BitVec.ofNat 6 (bits w 16 6)) (BitVec.ofNat 6 (bits w 10 6)) (BitVec.ofNat 6 (bits w 4 6)))
  | 45 => accept (bits w 0 4 == 0) (.fsub (BitVec.ofNat 6 (bits w 16 6)) (BitVec.ofNat 6 (bits w 10 6)) (BitVec.ofNat 6 (bits w 4 6)))
  | 46 => accept (bits w 0 4 == 0) (.fmul (BitVec.ofNat 6 (bits w 16 6)) (BitVec.ofNat 6 (bits w 10 6)) (BitVec.ofNat 6 (bits w 4 6)))
  | 47 => accept (bits w 0 4 == 0) (.ffma (BitVec.ofNat 6 (bits w 16 6)) (BitVec.ofNat 6 (bits w 10 6)) (BitVec.ofNat 6 (bits w 4 6)))
  | 48 => accept (bits w 0 4 == 0) (.fmin (BitVec.ofNat 6 (bits w 16 6)) (BitVec.ofNat 6 (bits w 10 6)) (BitVec.ofNat 6 (bits w 4 6)))
  | 49 => accept (bits w 0 4 == 0) (.fmax (BitVec.ofNat 6 (bits w 16 6)) (BitVec.ofNat 6 (bits w 10 6)) (BitVec.ofNat 6 (bits w 4 6)))
  | 50 => accept (bits w 0 3 == 0 && decide (bits w 15 4 < 14)) (.fcmp (BitVec.ofNat 3 (bits w 19 3)) (Cond.ofCode (bits w 15 4)) (BitVec.ofNat 6 (bits w 9 6)) (BitVec.ofNat 6 (bits w 3 6)))
  | 51 => accept (bits w 1 9 == 0) (.fcvti (bits w 0 1 == 1) (BitVec.ofNat 6 (bits w 16 6)) (BitVec.ofNat 6 (bits w 10 6)))
  | 52 => accept (bits w 1 9 == 0) (.icvtf (bits w 0 1 == 1) (BitVec.ofNat 6 (bits w 16 6)) (BitVec.ofNat 6 (bits w 10 6)))
  | _ => .error .illegalOp

/-- The vector slots (R28). -/
def decodeVec (vs : VSlot) (w : Nat) : Dec :=
  match bits w 22 6 with
  | 1 => accept (true) (.vadd vs (VFmt.ofCode (bits w 19 3)) (bits w 18 1 == 1) (BitVec.ofNat 6 (bits w 12 6)) (BitVec.ofNat 6 (bits w 6 6)) (BitVec.ofNat 6 (bits w 0 6)))
  | 2 => accept (true) (.vsub vs (VFmt.ofCode (bits w 19 3)) (bits w 18 1 == 1) (BitVec.ofNat 6 (bits w 12 6)) (BitVec.ofNat 6 (bits w 6 6)) (BitVec.ofNat 6 (bits w 0 6)))
  | 3 => accept (true) (.vmul vs (VFmt.ofCode (bits w 19 3)) (bits w 18 1 == 1) (BitVec.ofNat 6 (bits w 12 6)) (BitVec.ofNat 6 (bits w 6 6)) (BitVec.ofNat 6 (bits w 0 6)))
  | 4 => accept (true) (.vfma vs (VFmt.ofCode (bits w 19 3)) (bits w 18 1 == 1) (BitVec.ofNat 6 (bits w 12 6)) (BitVec.ofNat 6 (bits w 6 6)) (BitVec.ofNat 6 (bits w 0 6)))
  | 5 => accept (true) (.vfms vs (VFmt.ofCode (bits w 19 3)) (bits w 18 1 == 1) (BitVec.ofNat 6 (bits w 12 6)) (BitVec.ofNat 6 (bits w 6 6)) (BitVec.ofNat 6 (bits w 0 6)))
  | 6 => accept (true) (.vmin vs (VFmt.ofCode (bits w 19 3)) (bits w 18 1 == 1) (BitVec.ofNat 6 (bits w 12 6)) (BitVec.ofNat 6 (bits w 6 6)) (BitVec.ofNat 6 (bits w 0 6)))
  | 7 => accept (true) (.vmax vs (VFmt.ofCode (bits w 19 3)) (bits w 18 1 == 1) (BitVec.ofNat 6 (bits w 12 6)) (BitVec.ofNat 6 (bits w 6 6)) (BitVec.ofNat 6 (bits w 0 6)))
  | 8 => accept (bits w 0 6 == 0) (.vabs vs (VFmt.ofCode (bits w 19 3)) (bits w 18 1 == 1) (BitVec.ofNat 6 (bits w 12 6)) (BitVec.ofNat 6 (bits w 6 6)))
  | 9 => accept (bits w 0 6 == 0) (.vneg vs (VFmt.ofCode (bits w 19 3)) (bits w 18 1 == 1) (BitVec.ofNat 6 (bits w 12 6)) (BitVec.ofNat 6 (bits w 6 6)))
  | 10 => accept (true) (.vabd vs (VFmt.ofCode (bits w 19 3)) (bits w 18 1 == 1) (BitVec.ofNat 6 (bits w 12 6)) (BitVec.ofNat 6 (bits w 6 6)) (BitVec.ofNat 6 (bits w 0 6)))
  | 11 => accept (true) (.vand vs (VFmt.ofCode (bits w 19 3)) (bits w 18 1 == 1) (BitVec.ofNat 6 (bits w 12 6)) (BitVec.ofNat 6 (bits w 6 6)) (BitVec.ofNat 6 (bits w 0 6)))
  | 12 => accept (true) (.vor vs (VFmt.ofCode (bits w 19 3)) (bits w 18 1 == 1) (BitVec.ofNat 6 (bits w 12 6)) (BitVec.ofNat 6 (bits w 6 6)) (BitVec.ofNat 6 (bits w 0 6)))
  | 13 => accept (true) (.vxor vs (VFmt.ofCode (bits w 19 3)) (bits w 18 1 == 1) (BitVec.ofNat 6 (bits w 12 6)) (BitVec.ofNat 6 (bits w 6 6)) (BitVec.ofNat 6 (bits w 0 6)))
  | 14 => accept (true) (.vshl vs (VFmt.ofCode (bits w 19 3)) (bits w 18 1 == 1) (BitVec.ofNat 6 (bits w 12 6)) (BitVec.ofNat 6 (bits w 6 6)) (BitVec.ofNat 6 (bits w 0 6)))
  | 15 => accept (true) (.vshr vs (VFmt.ofCode (bits w 19 3)) (bits w 18 1 == 1) (BitVec.ofNat 6 (bits w 12 6)) (BitVec.ofNat 6 (bits w 6 6)) (BitVec.ofNat 6 (bits w 0 6)))
  | 16 => accept (true) (.vsra vs (VFmt.ofCode (bits w 19 3)) (bits w 18 1 == 1) (BitVec.ofNat 6 (bits w 12 6)) (BitVec.ofNat 6 (bits w 6 6)) (BitVec.ofNat 6 (bits w 0 6)))
  | 17 => accept (true) (.vadds vs (VFmt.ofCode (bits w 19 3)) (bits w 18 1 == 1) (BitVec.ofNat 6 (bits w 12 6)) (BitVec.ofNat 6 (bits w 6 6)) (BitVec.ofNat 6 (bits w 0 6)))
  | 18 => accept (true) (.vsubs vs (VFmt.ofCode (bits w 19 3)) (bits w 18 1 == 1) (BitVec.ofNat 6 (bits w 12 6)) (BitVec.ofNat 6 (bits w 6 6)) (BitVec.ofNat 6 (bits w 0 6)))
  | 19 => accept (true) (.vcmpeq vs (VFmt.ofCode (bits w 19 3)) (bits w 18 1 == 1) (BitVec.ofNat 6 (bits w 12 6)) (BitVec.ofNat 6 (bits w 6 6)) (BitVec.ofNat 6 (bits w 0 6)))
  | 20 => accept (true) (.vcmplt vs (VFmt.ofCode (bits w 19 3)) (bits w 18 1 == 1) (BitVec.ofNat 6 (bits w 12 6)) (BitVec.ofNat 6 (bits w 6 6)) (BitVec.ofNat 6 (bits w 0 6)))
  | 21 => accept (true) (.vcmple vs (VFmt.ofCode (bits w 19 3)) (bits w 18 1 == 1) (BitVec.ofNat 6 (bits w 12 6)) (BitVec.ofNat 6 (bits w 6 6)) (BitVec.ofNat 6 (bits w 0 6)))
  | 22 => accept (true) (.vsel vs (VFmt.ofCode (bits w 19 3)) (bits w 18 1 == 1) (BitVec.ofNat 6 (bits w 12 6)) (BitVec.ofNat 6 (bits w 6 6)) (BitVec.ofNat 6 (bits w 0 6)))
  | 23 => accept (bits w 0 6 == 0) (.vexp2 vs (VFmt.ofCode (bits w 19 3)) (bits w 18 1 == 1) (BitVec.ofNat 6 (bits w 12 6)) (BitVec.ofNat 6 (bits w 6 6)))
  | 24 => accept (bits w 0 6 == 0) (.vlog2 vs (VFmt.ofCode (bits w 19 3)) (bits w 18 1 == 1) (BitVec.ofNat 6 (bits w 12 6)) (BitVec.ofNat 6 (bits w 6 6)))
  | 25 => accept (bits w 0 6 == 0) (.vrcp vs (VFmt.ofCode (bits w 19 3)) (bits w 18 1 == 1) (BitVec.ofNat 6 (bits w 12 6)) (BitVec.ofNat 6 (bits w 6 6)))
  | 26 => accept (bits w 0 6 == 0) (.vrsq vs (VFmt.ofCode (bits w 19 3)) (bits w 18 1 == 1) (BitVec.ofNat 6 (bits w 12 6)) (BitVec.ofNat 6 (bits w 6 6)))
  | 27 => accept (bits w 4 2 == 0) (.vcvt vs (VFmt.ofCode (bits w 19 3)) (bits w 18 1 == 1) (BitVec.ofNat 6 (bits w 12 6)) (BitVec.ofNat 6 (bits w 6 6)) (VFmt.ofCode (bits w 0 3)) (bits w 3 1 == 1))
  | 28 => accept (true) (.vbcast vs (VFmt.ofCode (bits w 19 3)) (bits w 18 1 == 1) (BitVec.ofNat 6 (bits w 12 6)) (BitVec.ofNat 6 (bits w 6 6)) (BitVec.ofNat 6 (bits w 0 6)))
  | 29 => accept (bits w 0 6 == 0) (.vbcs vs (VFmt.ofCode (bits w 19 3)) (bits w 18 1 == 1) (BitVec.ofNat 6 (bits w 12 6)) (BitVec.ofNat 6 (bits w 6 6)))
  | 30 => accept (true) (.vperm vs (VFmt.ofCode (bits w 19 3)) (bits w 18 1 == 1) (BitVec.ofNat 6 (bits w 12 6)) (BitVec.ofNat 6 (bits w 6 6)) (BitVec.ofNat 6 (bits w 0 6)))
  | 31 => accept (bits w 0 6 == 0) (.vredadd vs (VFmt.ofCode (bits w 19 3)) (bits w 18 1 == 1) (BitVec.ofNat 6 (bits w 12 6)) (BitVec.ofNat 6 (bits w 6 6)))
  | 32 => accept (bits w 0 6 == 0) (.vredmax vs (VFmt.ofCode (bits w 19 3)) (bits w 18 1 == 1) (BitVec.ofNat 6 (bits w 12 6)) (BitVec.ofNat 6 (bits w 6 6)))
  | 33 => accept (bits w 0 6 == 0) (.vredmin vs (VFmt.ofCode (bits w 19 3)) (bits w 18 1 == 1) (BitVec.ofNat 6 (bits w 12 6)) (BitVec.ofNat 6 (bits w 6 6)))
  | 34 => accept (bits w 0 6 == 0) (.vscan vs (VFmt.ofCode (bits w 19 3)) (bits w 18 1 == 1) (BitVec.ofNat 6 (bits w 12 6)) (BitVec.ofNat 6 (bits w 6 6)))
  | 35 => accept (true) (.vdot4 vs (VFmt.ofCode (bits w 19 3)) (bits w 18 1 == 1) (BitVec.ofNat 6 (bits w 12 6)) (BitVec.ofNat 6 (bits w 6 6)) (BitVec.ofNat 6 (bits w 0 6)))
  | 36 => accept (bits w 0 6 == 0) (.vmov vs (VFmt.ofCode (bits w 19 3)) (bits w 18 1 == 1) (BitVec.ofNat 6 (bits w 12 6)) (BitVec.ofNat 6 (bits w 6 6)))
  | 37 => accept (bits w 0 6 == 0) (.viota vs (VFmt.ofCode (bits w 19 3)) (bits w 18 1 == 1) (BitVec.ofNat 6 (bits w 12 6)) (BitVec.ofNat 6 (bits w 6 6)))
  | 38 => accept (bits w 0 6 == 0 && bits w 15 4 == 0) (.vmskp vs (VFmt.ofCode (bits w 19 3)) (BitVec.ofNat 3 (bits w 12 3)) (BitVec.ofNat 6 (bits w 6 6)))
  | 39 => accept (bits w 0 6 == 0 && bits w 18 1 == 0) (.vmskc vs (VFmt.ofCode (bits w 19 3)) (BitVec.ofNat 6 (bits w 12 6)) (BitVec.ofNat 6 (bits w 6 6)))
  | 40 => accept (true) (.vshuf vs (VFmt.ofCode (bits w 19 3)) (bits w 18 1 == 1) (BitVec.ofNat 6 (bits w 12 6)) (BitVec.ofNat 6 (bits w 6 6)) (BitVec.ofNat 6 (bits w 0 6)))
  | 41 => accept (bits w 18 1 == 0) (.vmovs vs (VFmt.ofCode (bits w 19 3)) (BitVec.ofNat 6 (bits w 12 6)) (BitVec.ofNat 6 (bits w 6 6)) (BitVec.ofNat 6 (bits w 0 6)))
  | 42 => accept (true) (.vins vs (VFmt.ofCode (bits w 19 3)) (bits w 18 1 == 1) (BitVec.ofNat 6 (bits w 12 6)) (BitVec.ofNat 6 (bits w 6 6)) (BitVec.ofNat 6 (bits w 0 6)))
  | _ => .error .illegalOp

/-- FENCE, by its kind (R29). -/
def decodeFence (w : Nat) : Dec :=
  match bits w 16 2 with
  | 1 => accept (bits w 3 13 == 0 && bits w 18 4 == 0) (.fenceAcq (BitVec.ofNat 3 (bits w 0 3)))
  | 2 => accept (bits w 3 13 == 0 && bits w 18 4 == 0) (.fenceRel (BitVec.ofNat 3 (bits w 0 3)))
  | 3 => accept (bits w 3 13 == 0 && bits w 18 4 == 0) (.fenceAcqrel (BitVec.ofNat 3 (bits w 0 3)))
  | _ => .error .illegalOperand

/-- The load/store slot (R29). -/
def decodeLsu (w : Nat) : Dec :=
  match bits w 22 6 with
  | 1 => accept (bits w 8 2 == 0) (.ldl (BitVec.ofNat 6 (bits w 16 6)) (BitVec.ofNat 6 (bits w 10 6)) (BitVec.ofNat 8 (bits w 0 8)))
  | 2 => accept (bits w 8 2 == 0) (.stl (BitVec.ofNat 6 (bits w 16 6)) (BitVec.ofNat 6 (bits w 10 6)) (BitVec.ofNat 8 (bits w 0 8)))
  | 3 => accept (bits w 8 2 == 0) (.ldlp (BitVec.ofNat 6 (bits w 16 6)) (BitVec.ofNat 6 (bits w 10 6)) (BitVec.ofNat 8 (bits w 0 8)))
  | 4 => accept (bits w 8 2 == 0) (.stlp (BitVec.ofNat 6 (bits w 16 6)) (BitVec.ofNat 6 (bits w 10 6)) (BitVec.ofNat 8 (bits w 0 8)))
  | 5 => accept (bits w 8 2 == 0) (.ldls (BitVec.ofNat 6 (bits w 16 6)) (BitVec.ofNat 6 (bits w 10 6)) (BitVec.ofNat 2 (bits w 6 2)) (BitVec.ofNat 6 (bits w 0 6)))
  | 6 => accept (bits w 8 2 == 0) (.stls (BitVec.ofNat 6 (bits w 16 6)) (BitVec.ofNat 6 (bits w 10 6)) (BitVec.ofNat 2 (bits w 6 2)) (BitVec.ofNat 6 (bits w 0 6)))
  | 7 => accept (true) (.ldg (BitVec.ofNat 6 (bits w 16 6)) (BitVec.ofNat 6 (bits w 10 6)) (Pol.ofCode (bits w 8 2)) (BitVec.ofNat 8 (bits w 0 8)))
  | 8 => accept (true) (.stg (BitVec.ofNat 6 (bits w 16 6)) (BitVec.ofNat 6 (bits w 10 6)) (Pol.ofCode (bits w 8 2)) (BitVec.ofNat 8 (bits w 0 8)))
  | 9 => accept (true) (.ldgp (BitVec.ofNat 6 (bits w 16 6)) (BitVec.ofNat 6 (bits w 10 6)) (Pol.ofCode (bits w 8 2)) (BitVec.ofNat 8 (bits w 0 8)))
  | 10 => accept (true) (.stgp (BitVec.ofNat 6 (bits w 16 6)) (BitVec.ofNat 6 (bits w 10 6)) (Pol.ofCode (bits w 8 2)) (BitVec.ofNat 8 (bits w 0 8)))
  | 11 => accept (true) (.ldgs (BitVec.ofNat 6 (bits w 16 6)) (BitVec.ofNat 6 (bits w 10 6)) (Pol.ofCode (bits w 8 2)) (BitVec.ofNat 2 (bits w 6 2)) (BitVec.ofNat 6 (bits w 0 6)))
  | 12 => accept (true) (.stgs (BitVec.ofNat 6 (bits w 16 6)) (BitVec.ofNat 6 (bits w 10 6)) (Pol.ofCode (bits w 8 2)) (BitVec.ofNat 2 (bits w 6 2)) (BitVec.ofNat 6 (bits w 0 6)))
  | 13 => accept (bits w 0 3 == 0 && decide (bits w 4 4 < 11)) (.atom (AtomFn.ofCode (bits w 4 4)) (bits w 3 1 == 1) (Pol.ofCode (bits w 8 2)) (BitVec.ofNat 6 (bits w 16 6)) (BitVec.ofNat 6 (bits w 10 6)))
  | 14 => accept (bits w 0 3 == 0 && bits w 8 2 == 0 && decide (bits w 4 4 < 11)) (.atoml (AtomFn.ofCode (bits w 4 4)) (bits w 3 1 == 1) (BitVec.ofNat 6 (bits w 16 6)) (BitVec.ofNat 6 (bits w 10 6)))
  | 15 => decodeFence w
  | 16 => accept (bits w 0 16 == 0) (.claimb (BitVec.ofNat 6 (bits w 16 6)))
  | 17 => accept (bits w 0 16 == 0) (.relb (BitVec.ofNat 6 (bits w 16 6)))
  | 18 => accept (bits w 0 16 == 0) (.claimt (BitVec.ofNat 6 (bits w 16 6)))
  | 19 => accept (bits w 0 16 == 0) (.relt (BitVec.ofNat 6 (bits w 16 6)))
  | 20 => accept (true) (.prfg (BitVec.ofNat 6 (bits w 16 6)) (BitVec.ofNat 6 (bits w 10 6)) (Pol.ofCode (bits w 8 2)) (BitVec.ofNat 8 (bits w 0 8)))
  | 21 => accept (bits w 8 2 == 0) (.publ (BitVec.ofNat 6 (bits w 16 6)) (BitVec.ofNat 6 (bits w 10 6)) (BitVec.ofNat 8 (bits w 0 8)))
  | 22 => accept (bits w 8 2 == 0) (.invl (BitVec.ofNat 6 (bits w 16 6)) (BitVec.ofNat 6 (bits w 10 6)) (BitVec.ofNat 8 (bits w 0 8)))
  | 23 => accept (bits w 8 2 == 0) (.ldlx (BitVec.ofNat 6 (bits w 16 6)) (BitVec.ofNat 6 (bits w 10 6)) (BitVec.ofNat 8 (bits w 0 8)))
  | _ => .error .illegalOp

/-- MBOOM, by its operation (R178). -/
def decodeMboom (w : Nat) : Dec :=
  match bits w 14 4 with
  | 0 => accept (bits w 0 4 == 0) (.mboomRmax (BitVec.ofNat 4 (bits w 18 4)) (BitVec.ofNat 6 (bits w 8 6)) (BitVec.ofNat 4 (bits w 4 4)))
  | 1 => accept (bits w 0 4 == 0) (.mboomRsum (BitVec.ofNat 4 (bits w 18 4)) (BitVec.ofNat 6 (bits w 8 6)) (BitVec.ofNat 4 (bits w 4 4)))
  | 2 => accept (bits w 0 4 == 0) (.mboomRscale (BitVec.ofNat 4 (bits w 18 4)) (BitVec.ofNat 6 (bits w 8 6)) (BitVec.ofNat 4 (bits w 4 4)))
  | 3 => accept (bits w 0 4 == 0) (.mboomCscale (BitVec.ofNat 4 (bits w 18 4)) (BitVec.ofNat 6 (bits w 8 6)) (BitVec.ofNat 4 (bits w 4 4)))
  | 4 => accept (bits w 0 4 == 0) (.mboomSexp (BitVec.ofNat 4 (bits w 18 4)) (BitVec.ofNat 6 (bits w 8 6)) (BitVec.ofNat 4 (bits w 4 4)))
  | 5 => accept (bits w 0 4 == 0 && bits w 8 6 == 0) (.mboomNorm (BitVec.ofNat 4 (bits w 18 4)) (BitVec.ofNat 4 (bits w 4 4)))
  | 6 => accept (bits w 0 4 == 0 && bits w 8 6 == 0) (.mboomCzero (BitVec.ofNat 4 (bits w 18 4)) (BitVec.ofNat 4 (bits w 4 4)))
  | 7 => accept (bits w 0 4 == 0) (.mboomRstat (BitVec.ofNat 4 (bits w 18 4)) (BitVec.ofNat 6 (bits w 8 6)) (BitVec.ofNat 4 (bits w 4 4)))
  | _ => .error .illegalOperand

/-- ACARRY, by its direction (R32). -/
def decodeAcarry (w : Nat) : Dec :=
  match bits w 17 1 with
  | 0 => accept (bits w 0 6 == 0 && bits w 12 2 == 0) (.acarryExp (BitVec.ofNat 4 (bits w 18 4)) (bits w 14 1 == 1) (BitVec.ofNat 2 (bits w 15 2)) (BitVec.ofNat 6 (bits w 6 6)))
  | _ => accept (bits w 0 6 == 0 && bits w 12 2 == 0) (.acarryImp (BitVec.ofNat 4 (bits w 18 4)) (bits w 14 1 == 1) (BitVec.ofNat 2 (bits w 15 2)) (BitVec.ofNat 6 (bits w 6 6)))

/-- The array slot (R32). -/
def decodeArr (w : Nat) : Dec :=
  match bits w 22 6 with
  | 1 => accept (bits w 0 12 == 0) (.tdesc (BitVec.ofNat 4 (bits w 18 4)) (BitVec.ofNat 6 (bits w 12 6)))
  | 2 => accept (bits w 2 2 == 0) (.mma (BitVec.ofNat 4 (bits w 18 4)) (BitVec.ofNat 4 (bits w 14 4)) (BitVec.ofNat 4 (bits w 10 4)) (CellOp.ofCode (bits w 8 2)) (BitVec.ofNat 4 (bits w 4 4)) (bits w 0 1 == 1) (bits w 1 1 == 1))
  | 3 => accept (bits w 2 2 == 0 && bits w 8 2 == 0) (.mmap (BitVec.ofNat 4 (bits w 18 4)) (BitVec.ofNat 4 (bits w 14 4)) (BitVec.ofNat 4 (bits w 10 4)) (BitVec.ofNat 4 (bits w 4 4)) (bits w 0 1 == 1) (bits w 1 1 == 1))
  | 4 => accept (bits w 0 16 == 0) (.cpat (BitVec.ofNat 6 (bits w 16 6)))
  | 5 => accept (bits w 0 4 == 0 && bits w 8 10 == 0) (.mzero (BitVec.ofNat 4 (bits w 18 4)) (BitVec.ofNat 4 (bits w 4 4)))
  | 6 => accept (true) (.mdrain (BitVec.ofNat 4 (bits w 18 4)) (XFmt.ofCode (bits w 14 4)) (BitVec.ofNat 6 (bits w 8 6)) (BitVec.ofNat 4 (bits w 4 4)) (BitVec.ofNat 2 (bits w 2 2)) (bits w 1 1 == 1) (bits w 0 1 == 1))
  | 7 => decodeMboom w
  | 8 => accept (bits w 0 2 == 0) (.attn (BitVec.ofNat 4 (bits w 18 4)) (BitVec.ofNat 4 (bits w 14 4)) (BitVec.ofNat 6 (bits w 8 6)) (BitVec.ofNat 6 (bits w 2 6)))
  | 9 => decodeAcarry w
  | 10 => accept (bits w 0 12 == 0) (.mstat (BitVec.ofNat 6 (bits w 16 6)) (BitVec.ofNat 4 (bits w 12 4)))
  | _ => .error .illegalOp

/-- The transform slot (R31). -/
def decodeXf (w : Nat) : Dec :=
  match bits w 22 6 with
  | 1 => accept (true) (.xcvt (XFmt.ofCode (bits w 18 4)) (XFmt.ofCode (bits w 14 4)) (bits w 13 1 == 1) (bits w 12 1 == 1) (BitVec.ofNat 6 (bits w 6 6)) (BitVec.ofNat 6 (bits w 0 6)))
  | 2 => accept (bits w 12 1 == 0) (.xqnt (XFmt.ofCode (bits w 18 4)) (bits w 17 1 == 1) (BitVec.ofNat 3 (bits w 14 3)) (bits w 13 1 == 1) (BitVec.ofNat 6 (bits w 6 6)) (BitVec.ofNat 6 (bits w 0 6)))
  | 3 => accept (bits w 12 2 == 0) (.xdeq (XFmt.ofCode (bits w 18 4)) (bits w 17 1 == 1) (BitVec.ofNat 3 (bits w 14 3)) (BitVec.ofNat 6 (bits w 6 6)) (BitVec.ofNat 6 (bits w 0 6)))
  | 4 => accept (bits w 12 6 == 0 && bits w 20 2 == 0) (.xtrn (BitVec.ofNat 2 (bits w 18 2)) (BitVec.ofNat 6 (bits w 6 6)) (BitVec.ofNat 6 (bits w 0 6)))
  | 5 => accept (bits w 12 6 == 0 && bits w 20 2 == 0) (.xexp (BitVec.ofNat 2 (bits w 18 2)) (BitVec.ofNat 6 (bits w 6 6)) (BitVec.ofNat 6 (bits w 0 6)))
  | 6 => accept (bits w 12 6 == 0 && bits w 20 2 == 0) (.xcmp (BitVec.ofNat 2 (bits w 18 2)) (BitVec.ofNat 6 (bits w 6 6)) (BitVec.ofNat 6 (bits w 0 6)))
  | 7 => accept (bits w 6 8 == 0 && bits w 17 5 == 0) (.xscl (BitVec.ofNat 3 (bits w 14 3)) (BitVec.ofNat 6 (bits w 0 6)))
  | 8 => accept (bits w 0 6 == 0 && bits w 12 1 == 0 && bits w 14 8 == 0) (.xstat (bits w 13 1 == 1) (BitVec.ofNat 6 (bits w 6 6)))
  | 9 => accept (bits w 12 6 == 0) (.xpack (XFmt.ofCode (bits w 18 4)) (BitVec.ofNat 6 (bits w 6 6)) (BitVec.ofNat 6 (bits w 0 6)))
  | 10 => accept (bits w 12 6 == 0) (.xunpk (XFmt.ofCode (bits w 18 4)) (BitVec.ofNat 6 (bits w 6 6)) (BitVec.ofNat 6 (bits w 0 6)))
  | _ => .error .illegalOp

/-- KVDEM, by its target in [1:0]: 1 E4M3, 2 MXFP4 (R33). -/
def decodeKvdem (w : Nat) : Dec :=
  accept (bits w 2 8 == 0 && (bits w 0 2 == 1 || bits w 0 2 == 2))
    (.kvdem (BitVec.ofNat 6 (bits w 16 6)) (BitVec.ofNat 6 (bits w 10 6)) (bits w 0 2 == 2))

/-- SYSC, by its service number (R220); a number the controller does not know is an instruction of its own. -/
def decodeSysc (w : Nat) : Dec :=
  match bits w 0 10 with
  | 0 => accept (bits w 10 6 == 0) (.syscVersion (BitVec.ofNat 6 (bits w 16 6)))
  | 1 => accept (bits w 10 6 == 0) (.syscHealth (BitVec.ofNat 6 (bits w 16 6)))
  | 16 => accept (bits w 10 6 == 0) (.syscBarrierSetup (BitVec.ofNat 6 (bits w 16 6)))
  | 17 => accept (bits w 10 6 == 0) (.syscBarrierCancel (BitVec.ofNat 6 (bits w 16 6)))
  | 32 => accept (bits w 10 6 == 0) (.syscReleaseHeld (BitVec.ofNat 6 (bits w 16 6)))
  | 33 => accept (bits w 10 6 == 0) (.syscCancelHeld (BitVec.ofNat 6 (bits w 16 6)))
  | _ => accept (bits w 10 6 == 0) (.syscUnknownService (BitVec.ofNat 6 (bits w 16 6)) (BitVec.ofNat 10 (bits w 0 10)))

/-- The engine slot (R33). -/
def decodeEng (w : Nat) : Dec :=
  match bits w 22 6 with
  | 1 => accept (bits w 4 12 == 0) (.copy (BitVec.ofNat 6 (bits w 16 6)) (BitVec.ofNat 4 (bits w 0 4)))
  | 2 => accept (bits w 4 12 == 0) (.gath (BitVec.ofNat 6 (bits w 16 6)) (BitVec.ofNat 4 (bits w 0 4)))
  | 3 => accept (bits w 4 12 == 0) (.scat (BitVec.ofNat 6 (bits w 16 6)) (BitVec.ofNat 4 (bits w 0 4)))
  | 4 => accept (bits w 10 6 == 0) (.put (BitVec.ofNat 6 (bits w 16 6)) (BitVec.ofNat 10 (bits w 0 10)))
  | 5 => accept (bits w 10 6 == 0) (.get (BitVec.ofNat 6 (bits w 16 6)) (BitVec.ofNat 10 (bits w 0 10)))
  | 6 => accept (bits w 0 16 == 0) (.coll (BitVec.ofNat 6 (bits w 16 6)))
  | 7 => accept (bits w 3 7 == 0) (.signal (BitVec.ofNat 6 (bits w 16 6)) (BitVec.ofNat 6 (bits w 10 6)) (BitVec.ofNat 3 (bits w 0 3)))
  | 8 => accept (bits w 10 12 == 0) (.bar (BitVec.ofNat 3 (bits w 0 3)) (BitVec.ofNat 7 (bits w 3 7)))
  | 9 => accept (bits w 0 16 == 0) (.launch (BitVec.ofNat 6 (bits w 16 6)))
  | 10 => accept (true) (.take (BitVec.ofNat 6 (bits w 16 6)) (BitVec.ofNat 6 (bits w 10 6)) (BitVec.ofNat 10 (bits w 0 10)))
  | 11 => accept (bits w 0 22 == 0) (.trig)
  | 12 => accept (bits w 0 10 == 0) (.hist (BitVec.ofNat 6 (bits w 16 6)) (BitVec.ofNat 6 (bits w 10 6)))
  | 13 => accept (bits w 0 16 == 0) (.hlatch (BitVec.ofNat 6 (bits w 16 6)))
  | 14 => accept (bits w 0 16 == 0) (.topk (BitVec.ofNat 6 (bits w 16 6)))
  | 15 => accept (bits w 0 16 == 0) (.topkr (BitVec.ofNat 6 (bits w 16 6)))
  | 16 => accept (bits w 0 10 == 0) (.kvapp (BitVec.ofNat 6 (bits w 16 6)) (BitVec.ofNat 6 (bits w 10 6)))
  | 17 => accept (bits w 3 19 == 0) (.kvsync (BitVec.ofNat 3 (bits w 0 3)))
  | 18 => accept (bits w 0 10 == 0) (.kvfork (BitVec.ofNat 6 (bits w 16 6)) (BitVec.ofNat 6 (bits w 10 6)))
  | 19 => accept (bits w 0 16 == 0) (.kvfree (BitVec.ofNat 6 (bits w 16 6)))
  | 20 => accept (bits w 0 10 == 0) (.kvtrim (BitVec.ofNat 6 (bits w 16 6)) (BitVec.ofNat 6 (bits w 10 6)))
  | 21 => accept (bits w 0 16 == 0) (.kvcmpt (BitVec.ofNat 6 (bits w 16 6)))
  | 22 => accept (bits w 0 10 == 0) (.kvpf (BitVec.ofNat 6 (bits w 16 6)) (BitVec.ofNat 6 (bits w 10 6)))
  | 23 => decodeKvdem w
  | 24 => accept (bits w 0 16 == 0) (.kvlend (BitVec.ofNat 6 (bits w 16 6)))
  | 25 => accept (bits w 3 13 == 0) (.kvrsv (BitVec.ofNat 6 (bits w 16 6)) (BitVec.ofNat 3 (bits w 0 3)))
  | 26 => accept (bits w 3 7 == 0) (.kvqry (BitVec.ofNat 6 (bits w 16 6)) (BitVec.ofNat 6 (bits w 10 6)) (BitVec.ofNat 3 (bits w 0 3)))
  | 27 => accept (bits w 0 16 == 0) (.time (BitVec.ofNat 6 (bits w 16 6)))
  | 28 => decodeSysc w
  | 29 => accept (bits w 8 8 == 0) (.perf (BitVec.ofNat 6 (bits w 16 6)) (BitVec.ofNat 8 (bits w 0 8)))
  | 30 => accept (bits w 0 10 == 0) (.winreg (BitVec.ofNat 6 (bits w 16 6)) (BitVec.ofNat 6 (bits w 10 6)))
  | 31 => accept (bits w 0 10 == 0) (.qsend (BitVec.ofNat 6 (bits w 16 6)) (BitVec.ofNat 6 (bits w 10 6)))
  | _ => .error .illegalOp

/-- A non-control slot word (R10, R11): none for a NOP, else its guard and instruction. -/
def decodeSlot (slot w : Nat) : Except DecErr (Option (Nat × Instr)) :=
  if bits w 22 6 = 0 then (if bits w 0 22 = 0 then .ok none else .error .illegalOperand)
  else
    (match slot with
      | 1 => decodeSca w
      | 2 => decodeVec .va w
      | 3 => decodeVec .vb w
      | 4 => decodeLsu w
      | 5 => decodeArr w
      | 6 => decodeXf w
      | _ => decodeEng w).map fun i => some (bits w 28 4, i)

/-- The control operation of a CTL word (R9, R11). -/
def decodeCop (w : Nat) : Except DecErr (Option Instr) :=
  if bits w 19 5 = 0 then (if bits w 0 19 = 0 then .ok none else .error .illegalOperand)
  else (decodeCtl w).map some

/-- The port-using fields an instruction reads, the c position included (R19, R28). -/
def portFields : Instr → List (BitVec 6)
  | .vadd _ _ _ _ a b | .vsub _ _ _ _ a b | .vmul _ _ _ _ a b | .vmin _ _ _ _ a b | .vmax _ _ _ _ a b
  | .vabd _ _ _ _ a b | .vand _ _ _ _ a b | .vor _ _ _ _ a b | .vxor _ _ _ _ a b | .vshl _ _ _ _ a b
  | .vshr _ _ _ _ a b | .vsra _ _ _ _ a b | .vadds _ _ _ _ a b | .vsubs _ _ _ _ a b | .vcmpeq _ _ _ _ a b
  | .vcmplt _ _ _ _ a b | .vcmple _ _ _ _ a b | .vperm _ _ _ _ a b => [a, b]
  | .vfma _ _ _ d a b | .vfms _ _ _ d a b | .vsel _ _ _ d a b | .vdot4 _ _ _ d a b => [a, b, d]
  | .vabs _ _ _ _ a | .vneg _ _ _ _ a | .vexp2 _ _ _ _ a | .vlog2 _ _ _ _ a | .vrcp _ _ _ _ a | .vrsq _ _ _ _ a
  | .vcvt _ _ _ _ a _ _ | .vbcast _ _ _ _ a _ | .vredadd _ _ _ _ a | .vredmax _ _ _ _ a | .vredmin _ _ _ _ a
  | .vscan _ _ _ _ a | .vmov _ _ _ _ a | .vmskp _ _ _ a | .vmskc _ _ _ a | .vshuf _ _ _ _ a _ | .vmovs _ _ _ a _ => [a]
  | .vins _ _ _ d _ _ => [d]
  | .stl a _ _ | .stlp a _ _ | .stg a _ _ _ | .stgp a _ _ _ => [a]
  | .xcvt _ _ _ _ _ a | .xqnt _ _ _ _ _ a | .xdeq _ _ _ _ a | .xtrn _ _ a | .xexp _ _ a | .xcmp _ _ a | .xscl _ a
  | .xpack _ _ a | .xunpk _ _ a => [a]
  | .acarryImp _ _ _ a => [a]
  | _ => []

/-- A slot's port count: the distinct rows its port-using fields name (R19). -/
def portCount (i : Instr) : Nat := (((portFields i).filter portCode).eraseDups).length

/-- The allotments of a port plan to the slots (R18). -/
def planPorts : Nat → Nat × Nat × Nat × Nat × Nat
  | 0 => (2, 2, 1, 1, 0) | 1 => (3, 3, 0, 0, 0) | 2 => (3, 2, 1, 0, 0) | 3 => (2, 3, 1, 0, 0)
  | 4 => (3, 2, 0, 1, 0) | 5 => (2, 3, 0, 1, 0) | 6 => (2, 2, 2, 0, 0) | 7 => (2, 2, 0, 2, 0)
  | 8 => (3, 1, 1, 1, 0) | 9 => (1, 3, 1, 1, 0) | 10 => (3, 0, 1, 2, 0) | 11 => (0, 3, 1, 2, 0)
  | 12 => (1, 1, 2, 2, 0) | 13 => (2, 1, 1, 1, 1) | 14 => (1, 2, 1, 1, 1) | _ => (2, 2, 1, 0, 1)

/-- The allotment of one slot under a plan; slots without vector ports read none. -/
def allotment (plan slot : Nat) : Nat :=
  let (va, vb, lsu, xf, arr) := planPorts plan
  match slot with
  | 2 => va | 3 => vb | 4 => lsu | 6 => xf | 5 => arr | _ => 0

/-- A decoded bundle: its header and its operations, in slot order, each with its guard (p0 for the control slot). -/
structure Bundle where
  pop : Nat
  plan : Nat
  ops : List (Nat × Nat × Instr)
deriving DecidableEq, Repr

/-- Slot i of a bundle's 256 bits (R8). -/
def slotWord (bundle i : Nat) : Nat := bundle / 2 ^ (32 * i) % 2 ^ 32

/-- Slots 1 to 7 in order, the first failure standing (R13). -/
def decodeSlots (bundle : Nat) : List Nat → Except DecErr (List (Nat × Nat × Instr))
  | [] => .ok []
  | k :: ks =>
    match decodeSlot k (slotWord bundle k) with
    | .error e => .error e
    | .ok none => decodeSlots bundle ks
    | .ok (some (g, i)) =>
      match decodeSlots bundle ks with
      | .error e => .error e
      | .ok r => .ok ((k, g, i) :: r)

/-- The slot that a decode failure is raised for (R13, R19, R345): the first whose word fails, else the first that reads more rows than
its allotment (log entry 70). -/
def badSlot (bundle : Nat) : Nat :=
  match decodeCop (slotWord bundle 0) with
  | .error _ => 0
  | .ok _ =>
    let fails (k : Nat) : Bool := match decodeSlot k (slotWord bundle k) with
      | .error _ => true
      | .ok _ => false
    let tooMany (k : Nat) : Bool := match decodeSlot k (slotWord bundle k) with
      | .ok (some o) => decide (allotment (bits (slotWord bundle 0) 24 4) k < portCount o.2)
      | _ => false
    match [1, 2, 3, 4, 5, 6, 7].find? fails with
    | some k => k
    | none => ([1, 2, 3, 4, 5, 6, 7].find? tooMany).getD 0

/-- Decode of a bundle (R13 stage 2): slots 0 to 7, then the port counts of the whole bundle. -/
def decodeBundle (bundle : Nat) : Except DecErr Bundle :=
  let w := slotWord bundle 0
  match decodeCop w with
  | .error e => .error e
  | .ok c =>
    match decodeSlots bundle [1, 2, 3, 4, 5, 6, 7] with
    | .error e => .error e
    | .ok r =>
      if r.all fun o => decide (portCount o.2.2 ≤ allotment (bits w 24 4) o.1) then
        .ok ⟨bits w 28 4, bits w 24 4, (match c with | none => [] | some i => [(0, 0, i)]) ++ r⟩
      else .error .illegalBundle

/-- The slot of an instruction and its 32-bit word under guard p0 (R22 to R33); none for the events of the part,
which no bundle holds. -/
def encode : Instr → Option (Nat × Nat)
  | .bundle _ => none
  | .resultLands _ => none
  | .globalLoadLands _ => none
  | .contextSwitch _ => none
  | .bra off => some (0, 1 * 524288 + off.toNat)
  | .brc p off => some (0, 2 * 524288 + p.toNat * 32768 + off.toNat)
  | .brm t0 t1 t2 t3 bt => some (0, 3 * 524288 + t0.toNat * 32768 + t1.toNat * 2048 + t2.toNat * 128 + t3.toNat * 8 + bt.toNat)
  | .brr bt => some (0, 4 * 524288 + bt.toNat)
  | .call off => some (0, 5 * 524288 + off.toNat)
  | .callr bt => some (0, 6 * 524288 + bt.toNat)
  | .ret => some (0, 7 * 524288)
  | .loop cnt len => some (0, 8 * 524288 + cnt.toNat * 8192 + len.toNat)
  | .waitCtrGe scope sa sb => some (0, 9 * 524288 + scope.toNat * 8192 + sa.toNat * 128 + sb.toNat * 2)
  | .waitWpGe scope sa sb => some (0, 9 * 524288 + 1 * 65536 + scope.toNat * 8192 + sa.toNat * 128 + sb.toNat * 2)
  | .waitCoDone scope sa => some (0, 9 * 524288 + 2 * 65536 + scope.toNat * 8192 + sa.toNat * 128)
  | .waitBanks sa => some (0, 9 * 524288 + 3 * 65536 + sa.toNat * 128)
  | .waitTiles sa => some (0, 9 * 524288 + 4 * 65536 + sa.toNat * 128)
  | .waitQne sa => some (0, 9 * 524288 + 5 * 65536 + sa.toNat * 128)
  | .waitTime sa => some (0, 9 * 524288 + 6 * 65536 + sa.toNat * 128)
  | .yield => some (0, 10 * 524288)
  | .done => some (0, 11 * 524288)
  | .trap code => some (0, 12 * 524288 + code.toNat)
  | .eret => some (0, 13 * 524288)
  | .segb idx => some (0, 14 * 524288 + idx.toNat)
  | .sege => some (0, 15 * 524288)
  | .rdv id => some (0, 16 * 524288 + id.toNat)
  | .bkpt code => some (0, 17 * 524288 + code.toNat)
  | .phase scope => some (0, 18 * 524288 + scope.toNat)
  | .add d a b => some (1, 1 * 4194304 + d.toNat * 65536 + a.toNat * 1024 + b.toNat * 16)
  | .sub d a b => some (1, 2 * 4194304 + d.toNat * 65536 + a.toNat * 1024 + b.toNat * 16)
  | .mul d a b => some (1, 3 * 4194304 + d.toNat * 65536 + a.toNat * 1024 + b.toNat * 16)
  | .mulh d a b => some (1, 4 * 4194304 + d.toNat * 65536 + a.toNat * 1024 + b.toNat * 16)
  | .mulhn d a b => some (1, 5 * 4194304 + d.toNat * 65536 + a.toNat * 1024 + b.toNat * 16)
  | .div d a b => some (1, 6 * 4194304 + d.toNat * 65536 + a.toNat * 1024 + b.toNat * 16)
  | .divn d a b => some (1, 7 * 4194304 + d.toNat * 65536 + a.toNat * 1024 + b.toNat * 16)
  | .rem d a b => some (1, 8 * 4194304 + d.toNat * 65536 + a.toNat * 1024 + b.toNat * 16)
  | .remn d a b => some (1, 9 * 4194304 + d.toNat * 65536 + a.toNat * 1024 + b.toNat * 16)
  | .and d a b => some (1, 10 * 4194304 + d.toNat * 65536 + a.toNat * 1024 + b.toNat * 16)
  | .or d a b => some (1, 11 * 4194304 + d.toNat * 65536 + a.toNat * 1024 + b.toNat * 16)
  | .xor d a b => some (1, 12 * 4194304 + d.toNat * 65536 + a.toNat * 1024 + b.toNat * 16)
  | .andn d a b => some (1, 13 * 4194304 + d.toNat * 65536 + a.toNat * 1024 + b.toNat * 16)
  | .shl d a b => some (1, 14 * 4194304 + d.toNat * 65536 + a.toNat * 1024 + b.toNat * 16)
  | .shr d a b => some (1, 15 * 4194304 + d.toNat * 65536 + a.toNat * 1024 + b.toNat * 16)
  | .sra d a b => some (1, 16 * 4194304 + d.toNat * 65536 + a.toNat * 1024 + b.toNat * 16)
  | .min d a b => some (1, 17 * 4194304 + d.toNat * 65536 + a.toNat * 1024 + b.toNat * 16)
  | .max d a b => some (1, 18 * 4194304 + d.toNat * 65536 + a.toNat * 1024 + b.toNat * 16)
  | .minn d a b => some (1, 19 * 4194304 + d.toNat * 65536 + a.toNat * 1024 + b.toNat * 16)
  | .maxn d a b => some (1, 20 * 4194304 + d.toNat * 65536 + a.toNat * 1024 + b.toNat * 16)
  | .clz d a => some (1, 21 * 4194304 + d.toNat * 65536 + a.toNat * 1024)
  | .popc d a => some (1, 22 * 4194304 + d.toNat * 65536 + a.toNat * 1024)
  | .sel d a b k => some (1, 23 * 4194304 + d.toNat * 65536 + a.toNat * 1024 + b.toNat * 16 + k.toNat)
  | .addi d a imm => some (1, 24 * 4194304 + d.toNat * 65536 + a.toNat * 1024 + imm.toNat)
  | .andi d a imm => some (1, 25 * 4194304 + d.toNat * 65536 + a.toNat * 1024 + imm.toNat)
  | .ori d a imm => some (1, 26 * 4194304 + d.toNat * 65536 + a.toNat * 1024 + imm.toNat)
  | .xori d a imm => some (1, 27 * 4194304 + d.toNat * 65536 + a.toNat * 1024 + imm.toNat)
  | .shli d a n => some (1, 28 * 4194304 + d.toNat * 65536 + a.toNat * 1024 + n.toNat)
  | .shri d a n => some (1, 29 * 4194304 + d.toNat * 65536 + a.toNat * 1024 + n.toNat)
  | .srai d a n => some (1, 30 * 4194304 + d.toNat * 65536 + a.toNat * 1024 + n.toNat)
  | .li d imm => some (1, 31 * 4194304 + d.toNat * 65536 + imm.toNat)
  | .lis d imm => some (1, 32 * 4194304 + d.toNat * 65536 + imm.toNat)
  | .adds d a b k => some (1, 33 * 4194304 + d.toNat * 65536 + a.toNat * 1024 + b.toNat * 16 + k.toNat)
  | .cmp pair cond a b => some (1, 34 * 4194304 + pair.toNat * 524288 + cond.code * 32768 + a.toNat * 512 + b.toNat * 8)
  | .cmpi pair cond a imm => some (1, 35 * 4194304 + pair.toNat * 524288 + cond.code * 32768 + a.toNat * 512 + imm.toNat)
  | .pand pair pa pb => some (1, 36 * 4194304 + pair.toNat * 524288 + pa.toNat * 32768 + pb.toNat * 2048)
  | .por pair pa pb => some (1, 37 * 4194304 + pair.toNat * 524288 + pa.toNat * 32768 + pb.toNat * 2048)
  | .pxor pair pa pb => some (1, 38 * 4194304 + pair.toNat * 524288 + pa.toNat * 32768 + pb.toNat * 2048)
  | .setx x a imm => some (1, 39 * 4194304 + x.toNat * 1048576 + a.toNat * 16384 + imm.toNat * 64)
  | .movbt bt a => some (1, 40 * 4194304 + bt.toNat * 524288 + a.toNat * 8192)
  | .mfbt d bt => some (1, 41 * 4194304 + d.toNat * 65536 + bt.toNat * 8192)
  | .mfc d cr => some (1, 42 * 4194304 + d.toNat * 65536 + cr.toNat)
  | .mtc cr a => some (1, 43 * 4194304 + cr.toNat + a.toNat * 65536)
  | .fadd d a b => some (1, 44 * 4194304 + d.toNat * 65536 + a.toNat * 1024 + b.toNat * 16)
  | .fsub d a b => some (1, 45 * 4194304 + d.toNat * 65536 + a.toNat * 1024 + b.toNat * 16)
  | .fmul d a b => some (1, 46 * 4194304 + d.toNat * 65536 + a.toNat * 1024 + b.toNat * 16)
  | .ffma d a b => some (1, 47 * 4194304 + d.toNat * 65536 + a.toNat * 1024 + b.toNat * 16)
  | .fmin d a b => some (1, 48 * 4194304 + d.toNat * 65536 + a.toNat * 1024 + b.toNat * 16)
  | .fmax d a b => some (1, 49 * 4194304 + d.toNat * 65536 + a.toNat * 1024 + b.toNat * 16)
  | .fcmp pair cond a b => some (1, 50 * 4194304 + pair.toNat * 524288 + cond.code * 32768 + a.toNat * 512 + b.toNat * 8)
  | .fcvti n64 d a => some (1, 51 * 4194304 + n64.toNat + d.toNat * 65536 + a.toNat * 1024)
  | .icvtf n64 d a => some (1, 52 * 4194304 + n64.toNat + d.toNat * 65536 + a.toNat * 1024)
  | .vadd vs fmt nwb d a b => some (vs.slot, 1 * 4194304 + fmt.code * 524288 + nwb.toNat * 262144 + d.toNat * 4096 + a.toNat * 64 + b.toNat)
  | .vsub vs fmt nwb d a b => some (vs.slot, 2 * 4194304 + fmt.code * 524288 + nwb.toNat * 262144 + d.toNat * 4096 + a.toNat * 64 + b.toNat)
  | .vmul vs fmt nwb d a b => some (vs.slot, 3 * 4194304 + fmt.code * 524288 + nwb.toNat * 262144 + d.toNat * 4096 + a.toNat * 64 + b.toNat)
  | .vfma vs fmt nwb d a b => some (vs.slot, 4 * 4194304 + fmt.code * 524288 + nwb.toNat * 262144 + d.toNat * 4096 + a.toNat * 64 + b.toNat)
  | .vfms vs fmt nwb d a b => some (vs.slot, 5 * 4194304 + fmt.code * 524288 + nwb.toNat * 262144 + d.toNat * 4096 + a.toNat * 64 + b.toNat)
  | .vmin vs fmt nwb d a b => some (vs.slot, 6 * 4194304 + fmt.code * 524288 + nwb.toNat * 262144 + d.toNat * 4096 + a.toNat * 64 + b.toNat)
  | .vmax vs fmt nwb d a b => some (vs.slot, 7 * 4194304 + fmt.code * 524288 + nwb.toNat * 262144 + d.toNat * 4096 + a.toNat * 64 + b.toNat)
  | .vabs vs fmt nwb d a => some (vs.slot, 8 * 4194304 + fmt.code * 524288 + nwb.toNat * 262144 + d.toNat * 4096 + a.toNat * 64)
  | .vneg vs fmt nwb d a => some (vs.slot, 9 * 4194304 + fmt.code * 524288 + nwb.toNat * 262144 + d.toNat * 4096 + a.toNat * 64)
  | .vabd vs fmt nwb d a b => some (vs.slot, 10 * 4194304 + fmt.code * 524288 + nwb.toNat * 262144 + d.toNat * 4096 + a.toNat * 64 + b.toNat)
  | .vand vs fmt nwb d a b => some (vs.slot, 11 * 4194304 + fmt.code * 524288 + nwb.toNat * 262144 + d.toNat * 4096 + a.toNat * 64 + b.toNat)
  | .vor vs fmt nwb d a b => some (vs.slot, 12 * 4194304 + fmt.code * 524288 + nwb.toNat * 262144 + d.toNat * 4096 + a.toNat * 64 + b.toNat)
  | .vxor vs fmt nwb d a b => some (vs.slot, 13 * 4194304 + fmt.code * 524288 + nwb.toNat * 262144 + d.toNat * 4096 + a.toNat * 64 + b.toNat)
  | .vshl vs fmt nwb d a b => some (vs.slot, 14 * 4194304 + fmt.code * 524288 + nwb.toNat * 262144 + d.toNat * 4096 + a.toNat * 64 + b.toNat)
  | .vshr vs fmt nwb d a b => some (vs.slot, 15 * 4194304 + fmt.code * 524288 + nwb.toNat * 262144 + d.toNat * 4096 + a.toNat * 64 + b.toNat)
  | .vsra vs fmt nwb d a b => some (vs.slot, 16 * 4194304 + fmt.code * 524288 + nwb.toNat * 262144 + d.toNat * 4096 + a.toNat * 64 + b.toNat)
  | .vadds vs fmt nwb d a b => some (vs.slot, 17 * 4194304 + fmt.code * 524288 + nwb.toNat * 262144 + d.toNat * 4096 + a.toNat * 64 + b.toNat)
  | .vsubs vs fmt nwb d a b => some (vs.slot, 18 * 4194304 + fmt.code * 524288 + nwb.toNat * 262144 + d.toNat * 4096 + a.toNat * 64 + b.toNat)
  | .vcmpeq vs fmt nwb d a b => some (vs.slot, 19 * 4194304 + fmt.code * 524288 + nwb.toNat * 262144 + d.toNat * 4096 + a.toNat * 64 + b.toNat)
  | .vcmplt vs fmt nwb d a b => some (vs.slot, 20 * 4194304 + fmt.code * 524288 + nwb.toNat * 262144 + d.toNat * 4096 + a.toNat * 64 + b.toNat)
  | .vcmple vs fmt nwb d a b => some (vs.slot, 21 * 4194304 + fmt.code * 524288 + nwb.toNat * 262144 + d.toNat * 4096 + a.toNat * 64 + b.toNat)
  | .vsel vs fmt nwb d a b => some (vs.slot, 22 * 4194304 + fmt.code * 524288 + nwb.toNat * 262144 + d.toNat * 4096 + a.toNat * 64 + b.toNat)
  | .vexp2 vs fmt nwb d a => some (vs.slot, 23 * 4194304 + fmt.code * 524288 + nwb.toNat * 262144 + d.toNat * 4096 + a.toNat * 64)
  | .vlog2 vs fmt nwb d a => some (vs.slot, 24 * 4194304 + fmt.code * 524288 + nwb.toNat * 262144 + d.toNat * 4096 + a.toNat * 64)
  | .vrcp vs fmt nwb d a => some (vs.slot, 25 * 4194304 + fmt.code * 524288 + nwb.toNat * 262144 + d.toNat * 4096 + a.toNat * 64)
  | .vrsq vs fmt nwb d a => some (vs.slot, 26 * 4194304 + fmt.code * 524288 + nwb.toNat * 262144 + d.toNat * 4096 + a.toNat * 64)
  | .vcvt vs fmt nwb d a from_ inf => some (vs.slot, 27 * 4194304 + fmt.code * 524288 + nwb.toNat * 262144 + d.toNat * 4096 + a.toNat * 64 + from_.code + inf.toNat * 8)
  | .vbcast vs fmt nwb d a lane => some (vs.slot, 28 * 4194304 + fmt.code * 524288 + nwb.toNat * 262144 + d.toNat * 4096 + a.toNat * 64 + lane.toNat)
  | .vbcs vs fmt nwb d sa => some (vs.slot, 29 * 4194304 + fmt.code * 524288 + nwb.toNat * 262144 + d.toNat * 4096 + sa.toNat * 64)
  | .vperm vs fmt nwb d a b => some (vs.slot, 30 * 4194304 + fmt.code * 524288 + nwb.toNat * 262144 + d.toNat * 4096 + a.toNat * 64 + b.toNat)
  | .vredadd vs fmt nwb d a => some (vs.slot, 31 * 4194304 + fmt.code * 524288 + nwb.toNat * 262144 + d.toNat * 4096 + a.toNat * 64)
  | .vredmax vs fmt nwb d a => some (vs.slot, 32 * 4194304 + fmt.code * 524288 + nwb.toNat * 262144 + d.toNat * 4096 + a.toNat * 64)
  | .vredmin vs fmt nwb d a => some (vs.slot, 33 * 4194304 + fmt.code * 524288 + nwb.toNat * 262144 + d.toNat * 4096 + a.toNat * 64)
  | .vscan vs fmt nwb d a => some (vs.slot, 34 * 4194304 + fmt.code * 524288 + nwb.toNat * 262144 + d.toNat * 4096 + a.toNat * 64)
  | .vdot4 vs fmt nwb d a b => some (vs.slot, 35 * 4194304 + fmt.code * 524288 + nwb.toNat * 262144 + d.toNat * 4096 + a.toNat * 64 + b.toNat)
  | .vmov vs fmt nwb d a => some (vs.slot, 36 * 4194304 + fmt.code * 524288 + nwb.toNat * 262144 + d.toNat * 4096 + a.toNat * 64)
  | .viota vs fmt nwb d sa => some (vs.slot, 37 * 4194304 + fmt.code * 524288 + nwb.toNat * 262144 + d.toNat * 4096 + sa.toNat * 64)
  | .vmskp vs fmt pair a => some (vs.slot, 38 * 4194304 + fmt.code * 524288 + pair.toNat * 4096 + a.toNat * 64)
  | .vmskc vs fmt sd a => some (vs.slot, 39 * 4194304 + fmt.code * 524288 + sd.toNat * 4096 + a.toNat * 64)
  | .vshuf vs fmt nwb d a pat => some (vs.slot, 40 * 4194304 + fmt.code * 524288 + nwb.toNat * 262144 + d.toNat * 4096 + a.toNat * 64 + pat.toNat)
  | .vmovs vs fmt sd a lane => some (vs.slot, 41 * 4194304 + fmt.code * 524288 + sd.toNat * 4096 + a.toNat * 64 + lane.toNat)
  | .vins vs fmt nwb d sa lane => some (vs.slot, 42 * 4194304 + fmt.code * 524288 + nwb.toNat * 262144 + d.toNat * 4096 + sa.toNat * 64 + lane.toNat)
  | .ldl data base imm => some (4, 1 * 4194304 + data.toNat * 65536 + base.toNat * 1024 + imm.toNat)
  | .stl data base imm => some (4, 2 * 4194304 + data.toNat * 65536 + base.toNat * 1024 + imm.toNat)
  | .ldlp data base imm => some (4, 3 * 4194304 + data.toNat * 65536 + base.toNat * 1024 + imm.toNat)
  | .stlp data base imm => some (4, 4 * 4194304 + data.toNat * 65536 + base.toNat * 1024 + imm.toNat)
  | .ldls data base sz off => some (4, 5 * 4194304 + data.toNat * 65536 + base.toNat * 1024 + sz.toNat * 64 + off.toNat)
  | .stls data base sz off => some (4, 6 * 4194304 + data.toNat * 65536 + base.toNat * 1024 + sz.toNat * 64 + off.toNat)
  | .ldg data base cp imm => some (4, 7 * 4194304 + data.toNat * 65536 + base.toNat * 1024 + cp.code * 256 + imm.toNat)
  | .stg data base cp imm => some (4, 8 * 4194304 + data.toNat * 65536 + base.toNat * 1024 + cp.code * 256 + imm.toNat)
  | .ldgp data base cp imm => some (4, 9 * 4194304 + data.toNat * 65536 + base.toNat * 1024 + cp.code * 256 + imm.toNat)
  | .stgp data base cp imm => some (4, 10 * 4194304 + data.toNat * 65536 + base.toNat * 1024 + cp.code * 256 + imm.toNat)
  | .ldgs data base cp sz off => some (4, 11 * 4194304 + data.toNat * 65536 + base.toNat * 1024 + cp.code * 256 + sz.toNat * 64 + off.toNat)
  | .stgs data base cp sz off => some (4, 12 * 4194304 + data.toNat * 65536 + base.toNat * 1024 + cp.code * 256 + sz.toNat * 64 + off.toNat)
  | .atom f w64 cp data base => some (4, 13 * 4194304 + f.code * 16 + w64.toNat * 8 + cp.code * 256 + data.toNat * 65536 + base.toNat * 1024)
  | .atoml f w64 data base => some (4, 14 * 4194304 + f.code * 16 + w64.toNat * 8 + data.toNat * 65536 + base.toNat * 1024)
  | .fenceAcq scope => some (4, 15 * 4194304 + 1 * 65536 + scope.toNat)
  | .fenceRel scope => some (4, 15 * 4194304 + 2 * 65536 + scope.toNat)
  | .fenceAcqrel scope => some (4, 15 * 4194304 + 3 * 65536 + scope.toNat)
  | .claimb mask => some (4, 16 * 4194304 + mask.toNat * 65536)
  | .relb mask => some (4, 17 * 4194304 + mask.toNat * 65536)
  | .claimt mask => some (4, 18 * 4194304 + mask.toNat * 65536)
  | .relt mask => some (4, 19 * 4194304 + mask.toNat * 65536)
  | .prfg len base cp imm => some (4, 20 * 4194304 + len.toNat * 65536 + base.toNat * 1024 + cp.code * 256 + imm.toNat)
  | .publ len base imm => some (4, 21 * 4194304 + len.toNat * 65536 + base.toNat * 1024 + imm.toNat)
  | .invl len base imm => some (4, 22 * 4194304 + len.toNat * 65536 + base.toNat * 1024 + imm.toNat)
  | .ldlx data base imm => some (4, 23 * 4194304 + data.toNat * 65536 + base.toNat * 1024 + imm.toNat)
  | .xcvt tgt from_ stat inf d a => some (6, 1 * 4194304 + tgt.code * 262144 + from_.code * 16384 + stat.toNat * 8192 + inf.toNat * 4096 + d.toNat * 64 + a.toNat)
  | .xqnt tgt bf sc stat d a => some (6, 2 * 4194304 + tgt.code * 262144 + bf.toNat * 131072 + sc.toNat * 16384 + stat.toNat * 8192 + d.toNat * 64 + a.toNat)
  | .xdeq from_ bf sc d a => some (6, 3 * 4194304 + from_.code * 262144 + bf.toNat * 131072 + sc.toNat * 16384 + d.toNat * 64 + a.toNat)
  | .xtrn w d a => some (6, 4 * 4194304 + w.toNat * 262144 + d.toNat * 64 + a.toNat)
  | .xexp ceil d a => some (6, 5 * 4194304 + ceil.toNat * 262144 + d.toNat * 64 + a.toNat)
  | .xcmp ceil d a => some (6, 6 * 4194304 + ceil.toNat * 262144 + d.toNat * 64 + a.toNat)
  | .xscl sc a => some (6, 7 * 4194304 + sc.toNat * 16384 + a.toNat)
  | .xstat clr d => some (6, 8 * 4194304 + clr.toNat * 8192 + d.toNat * 64)
  | .xpack f d a => some (6, 9 * 4194304 + f.code * 262144 + d.toNat * 64 + a.toNat)
  | .xunpk f d a => some (6, 10 * 4194304 + f.code * 262144 + d.toNat * 64 + a.toNat)
  | .tdesc td sa => some (5, 1 * 4194304 + td.toNat * 262144 + sa.toNat * 4096)
  | .mma tile ta tb op cnt z ck => some (5, 2 * 4194304 + tile.toNat * 262144 + ta.toNat * 16384 + tb.toNat * 1024 + op.code * 256 + cnt.toNat * 16 + z.toNat + ck.toNat * 2)
  | .mmap tile ta tb cnt z ck => some (5, 3 * 4194304 + tile.toNat * 262144 + ta.toNat * 16384 + tb.toNat * 1024 + cnt.toNat * 16 + z.toNat + ck.toNat * 2)
  | .cpat sa => some (5, 4 * 4194304 + sa.toNat * 65536)
  | .mzero tile cnt => some (5, 5 * 4194304 + tile.toNat * 262144 + cnt.toNat * 16)
  | .mdrain tile fmt sa cnt codec stat chk => some (5, 6 * 4194304 + tile.toNat * 262144 + fmt.code * 16384 + sa.toNat * 256 + cnt.toNat * 16 + codec.toNat * 4 + stat.toNat * 2 + chk.toNat)
  | .mboomRmax tile sa cnt => some (5, 7 * 4194304 + tile.toNat * 262144 + sa.toNat * 256 + cnt.toNat * 16)
  | .mboomRsum tile sa cnt => some (5, 7 * 4194304 + 1 * 16384 + tile.toNat * 262144 + sa.toNat * 256 + cnt.toNat * 16)
  | .mboomRscale tile sa cnt => some (5, 7 * 4194304 + 2 * 16384 + tile.toNat * 262144 + sa.toNat * 256 + cnt.toNat * 16)
  | .mboomCscale tile sa cnt => some (5, 7 * 4194304 + 3 * 16384 + tile.toNat * 262144 + sa.toNat * 256 + cnt.toNat * 16)
  | .mboomSexp tile sa cnt => some (5, 7 * 4194304 + 4 * 16384 + tile.toNat * 262144 + sa.toNat * 256 + cnt.toNat * 16)
  | .mboomNorm tile cnt => some (5, 7 * 4194304 + 5 * 16384 + tile.toNat * 262144 + cnt.toNat * 16)
  | .mboomCzero tile cnt => some (5, 7 * 4194304 + 6 * 16384 + tile.toNat * 262144 + cnt.toNat * 16)
  | .mboomRstat tile sa cnt => some (5, 7 * 4194304 + 7 * 16384 + tile.toNat * 262144 + sa.toNat * 256 + cnt.toNat * 16)
  | .attn tile tq sh sr => some (5, 8 * 4194304 + tile.toNat * 262144 + tq.toNat * 16384 + sh.toNat * 256 + sr.toNat * 4)
  | .acarryExp tile l j row => some (5, 9 * 4194304 + tile.toNat * 262144 + l.toNat * 16384 + j.toNat * 32768 + row.toNat * 64)
  | .acarryImp tile l j row => some (5, 9 * 4194304 + 131072 + tile.toNat * 262144 + l.toNat * 16384 + j.toNat * 32768 + row.toNat * 64)
  | .mstat sa item => some (5, 10 * 4194304 + sa.toNat * 65536 + item.toNat * 4096)
  | .halyardEntryStart _ _ => none
  | .mmaGroupEnd _ => none
  | .attnPageEnd _ => none
  | .kvFaultService _ => none
  | .copy sa ch => some (7, 1 * 4194304 + sa.toNat * 65536 + ch.toNat)
  | .gath sa ch => some (7, 2 * 4194304 + sa.toNat * 65536 + ch.toNat)
  | .scat sa ch => some (7, 3 * 4194304 + sa.toNat * 65536 + ch.toNat)
  | .put sa win => some (7, 4 * 4194304 + sa.toNat * 65536 + win.toNat)
  | .get sa win => some (7, 5 * 4194304 + sa.toNat * 65536 + win.toNat)
  | .coll sa => some (7, 6 * 4194304 + sa.toNat * 65536)
  | .signal sa sb scope => some (7, 7 * 4194304 + sa.toNat * 65536 + sb.toNat * 1024 + scope.toNat)
  | .bar scope id => some (7, 8 * 4194304 + scope.toNat + id.toNat * 8)
  | .launch sa => some (7, 9 * 4194304 + sa.toNat * 65536)
  | .take sa sb max => some (7, 10 * 4194304 + sa.toNat * 65536 + sb.toNat * 1024 + max.toNat)
  | .trig => some (7, 11 * 4194304)
  | .hist sa sb => some (7, 12 * 4194304 + sa.toNat * 65536 + sb.toNat * 1024)
  | .hlatch sa => some (7, 13 * 4194304 + sa.toNat * 65536)
  | .topk sa => some (7, 14 * 4194304 + sa.toNat * 65536)
  | .topkr sa => some (7, 15 * 4194304 + sa.toNat * 65536)
  | .kvapp sa sb => some (7, 16 * 4194304 + sa.toNat * 65536 + sb.toNat * 1024)
  | .kvsync scope => some (7, 17 * 4194304 + scope.toNat)
  | .kvfork sa sb => some (7, 18 * 4194304 + sa.toNat * 65536 + sb.toNat * 1024)
  | .kvfree sa => some (7, 19 * 4194304 + sa.toNat * 65536)
  | .kvtrim sa sb => some (7, 20 * 4194304 + sa.toNat * 65536 + sb.toNat * 1024)
  | .kvcmpt sa => some (7, 21 * 4194304 + sa.toNat * 65536)
  | .kvpf sa sb => some (7, 22 * 4194304 + sa.toNat * 65536 + sb.toNat * 1024)
  | .kvdem sa sb mx => some (7, 23 * 4194304 + sa.toNat * 65536 + sb.toNat * 1024 + (1 + mx.toNat))
  | .kvlend sa => some (7, 24 * 4194304 + sa.toNat * 65536)
  | .kvrsv sa pair => some (7, 25 * 4194304 + sa.toNat * 65536 + pair.toNat)
  | .kvqry sa sb item => some (7, 26 * 4194304 + sa.toNat * 65536 + sb.toNat * 1024 + item.toNat)
  | .time sa => some (7, 27 * 4194304 + sa.toNat * 65536)
  | .perf sa ctr => some (7, 29 * 4194304 + sa.toNat * 65536 + ctr.toNat)
  | .syscVersion sa => some (7, 28 * 4194304 + sa.toNat * 65536 + 0)
  | .syscHealth sa => some (7, 28 * 4194304 + sa.toNat * 65536 + 1)
  | .syscBarrierSetup sa => some (7, 28 * 4194304 + sa.toNat * 65536 + 16)
  | .syscBarrierCancel sa => some (7, 28 * 4194304 + sa.toNat * 65536 + 17)
  | .syscReleaseHeld sa => some (7, 28 * 4194304 + sa.toNat * 65536 + 32)
  | .syscCancelHeld sa => some (7, 28 * 4194304 + sa.toNat * 65536 + 33)
  | .winreg sa sb => some (7, 30 * 4194304 + sa.toNat * 65536 + sb.toNat * 1024)
  | .qsend sa sb => some (7, 31 * 4194304 + sa.toNat * 65536 + sb.toNat * 1024)
  | .qsendDeferredDeliver _ => none
  | .engineAccept _ => none
  | .copyGranuleLands _ _ => none
  | .engineThreadComplete _ => none
  | .kvlendRun _ => none
  | .putLandedAtOwner _ _ _ _ _ => none
  | .putAckReturn _ => none
  | .frameTake _ _ _ => none
  | .frameReturn _ _ _ => none
  | .filerFileEntry _ => none
  | .ladderRun _ _ => none
  | .scrubberRun _ _ => none
  | .controllerPromote _ _ _ => none
  | .spindleDecide _ => none
  | .dependenceDecided _ => none
  | .dispatchGang _ => none
  | .passedOverTimeout _ => none
  | .preemptionCall _ => none
  | .homeRead _ _ => none
  | .homeWiRead _ _ => none
  | .homeWriteAccept _ _ => none
  | .homeOwnRequest _ _ => none
  | .homeSurrender _ _ => none
  | .registrantRevocation _ _ => none
  | .forwardedRead _ => none
  | .coreInvalidation _ _ => none
  | .summaryBucketClear _ _ => none
  | .l2UeDetect _ _ _ => none
  | .translationChange _ _ _ => none
  | .mapChange _ _ _ _ => none
  | .coreReef _ _ => none
  | .debugResume _ => none
  | .launchWindowStore _ _ => none
  | .shroudOpen _ => none
  | .shroudReset _ => none
  | .shroudDrainEnd _ => none
  | .shroudZeroiseEnd _ => none
  | .mboxConfigureStore _ _ => none
  | .mboxUnconfigureStore _ _ => none
  | .mboxRegisterPodWindow _ _ => none
  | .mboxWithdrawPodWindow _ _ => none
  | .mboxSetSpnCtl _ _ => none
  | .mboxSetFaultRecordArea _ _ => none
  | .mboxSetTrapRecords _ _ => none
  | .mboxSetPinOrClass _ _ => none
  | .mboxDeclareMeasuredImage _ _ => none
  | .mboxWriteWindowEntry _ _ => none
  | .mboxHeldLaunchPrivilege _ _ => none
  | .mboxOfferLendingPool _ _ => none
  | .mboxWithdrawLendingPool _ _ => none
  | .mboxSetTimeMaster _ _ => none
  | .migrateStart _ _ => none
  | .migrateRound _ _ => none
  | .migratePause _ _ _ => none
  | .migrateSave _ _ => none
  | .migrateRestore _ _ => none
  | .mboxFirmwareUpdate _ _ => none
  | .noteHeadWrite _ _ => none
  | .biasToHost _ _ => none
  | .biasToDevice _ _ => none
  | .biasFlipEffect _ _ => none
  | .hostCxlMemAccess _ _ _ => none
  | .hostSnoop _ => none
  | .poolBackInvalidate _ => none
  | .poolDeviceTimeout _ _ => none
  | .gateAuditRead _ => none
  | .spnStatRead _ => none
  | .pksStatRead => none
  | .registerWrite _ _ _ => none
  | .zellenFlitReceive _ _ _ _ => none
  | .zellenLinkDown _ => none
  | .zellenLinkUp _ => none
  | .timeSyncFlit _ _ => none
  | .spdmSessionOpen _ _ => none
  | .ideKmQuery _ _ => none
  | .ideKmKeyProg _ _ _ _ _ => none
  | .ideKmKeySetGo _ _ _ _ => none
  | .ideKmKeySetStop _ _ _ _ => none
  | .spdmSessionEnd _ => none
  | .spdmAttestationRequest _ _ => none
  | .ideIntegrityFailure _ => none
  | .linkReset => none
  | .powerOn _ _ _ _ => none
  | .packageReset => none
  | .vfFunctionLevelReset _ => none
  | .powerLimitExceeded _ _ => none
  | .thermalThrottle _ _ => none
  | .thermalStop _ => none
  | .halyardEntryEnd _ _ => none
  | .moveCommit _ _ _ => none
  | .timebaseTick => none
  | .walkerAnswer _ => none
  | .wiCopyDrop _ _ => none
  | .debuggerAttach _ _ _ => none
  | .launchKill _ => none
  | .engineReset _ _ => none
  | .throttlingEnd _ _ _ => none
  | .powerOff => none
  | .mboxUnknownCommand _ _ _ => none
  | .syscUnknownService sa svc => some (7, 28 * 4194304 + sa.toNat * 65536 + svc.toNat)

/-- The lowest-numbered plan under which one operation's ports fit (R34). -/
def planFor (slot n : Nat) : Nat :=
  match (List.range 16).find? fun p => decide (n ≤ allotment p slot) with
  | some p => p
  | none => 0

/-- The bundle that holds one operation under p0, its other slots NOPs, no queue popped. -/
def encodeBundle (i : Instr) : Option Nat :=
  match encode i with
  | none => none
  | some (slot, w) => some (planFor slot (portCount i) * 2 ^ 24 + w * 2 ^ (32 * slot))

/-- The instruction the decoder reads from a bundle whose bits are w, lying in memory as little-endian bytes, the first
slot lowest (R5, R8): the bundle that holds one operation under p0 and nothing more is that operation, any other bundle the
BUNDLE (log entry 5). -/
def decodeTableWord (nbits w : Nat) : Option Instr :=
  let n := w % 2 ^ nbits
  match decodeBundle n with
  | .error _ => none
  | .ok b =>
    match b.ops with
    | [(slot, 0, i)] => if encodeBundle i = some n ∧ (encode i).map (·.1) = some slot ∧ b.pop = 0 then some i else some (.bundle 0)
    | _ => some (.bundle 0)

end Sys2Proof
end

