-- ==== Sys2Proof/Machine/Preempt.lean ====
section
/-! DEFINITION. Pre-emption: when a context can be saved, its save area, its resumption, cores reefed and taken out of service (R232, R237, R312 to R314, R357, R358). -/

namespace Sys2Proof.Machine

/-- A context that must give up its core has stopped: it stands at a bundle boundary and holds issue no more, no trap waits, no
access or entry of it is under way, its segment is closed, its appends are filed (R312). -/
def State.atRest (s : State) (g : Nat) : Bool :=
  let c := s.ctx g
  let x := s.core (g / 4)
  c.unit.isSome && c.preempt && c.pend.isNone && !c.ending && x.holder != some (g % 4) && (s.loads.all fun l => l.g != g) && (s.reqs.all fun r => r.g != g) &&
  (x.journal.all fun e => e.g != g) && (x.engq.all fun m => !(m.op == 16 && m.g == g)) &&
  (s.threads.all fun t => !(t.cmd.op == 16 && t.cmd.g == g)) &&
  c.seg.isNone && x.halyard.all fun e => !(e.c == g % 4 && e.running)

/-- It is saved once every other context of its launch that gives up the core has stopped too, so that none of them changes banks that
move, or has its own left behind (R313; log entry 26). -/
def State.saveReady (s : State) (g : Nat) : Bool :=
  s.atRest g && [0, 1, 2, 3].all fun d =>
    let h := 4 * (g / 4) + d
    (s.ctx h).launch != (s.ctx g).launch || !(s.ctx h).preempt || s.atRest h

/-- Tiles a context owns on its core, and the planes whose first tile it owns (R313). -/
def Core.ownTiles (c : Core) (ctx : Nat) : List Nat := (List.range 12).filter fun t => Tab.get none c.tOwner t == some ctx
def Core.ownPlanes (c : Core) (ctx : Nat) : List Nat := (List.range 2).filter fun p => Tab.get none c.tOwner (6 * p) == some ctx

/-- Banks whose claim is recorded for a context (R145, R313). -/
def Core.ownBanks (c : Core) (l ctx : Nat) : List Nat := (List.range 32).filter fun b => Tab.get none c.banks b == some (l, ctx)

/-- Scratchpad bytes of a bank set. -/
def bankBytes (ram : Tab Byte) (bs : List Nat) : Tab Byte := ram.filter fun e => bs.contains (e.1 / 131072)

/-- CONTEXT_PREEMPT (R312, R313): the context goes to its launch's save area and its place is free. Its banks move with it, but
for those of a core in service on which another context of the launch goes on. -/
def State.save (s : State) (g : Nat) : State :=
  let k := g / 4
  match (s.ctx g).unit with
  | none => s
  | some u =>
    let s := s.surrenderAll g
    let x := s.core k
    let c := s.ctx g
    let pinned := x.health != .out && (List.range 4).any fun d =>
      (s.ctx (4 * k + d)).launch == some u.launch && !(s.ctx (4 * k + d)).preempt
    let banks := x.ownBanks u.launch (g % 4)
    let sv : Saved :=
      { unit := u, ctx := c, core := k, slot := g % 4, pinned := pinned, avoid := c.avoid, since := s.timebase, banks := banks
        ram := if pinned then [] else bankBytes x.ram banks
        tiles := (x.ownTiles (g % 4)).map x.logTile, carries := (x.ownPlanes (g % 4)).map x.logCarry
        unpub := x.unpub.filterMap fun e => match e.2 with | some b => if b.g = g then some (e.1, b) else none | none => none
        entries := (x.halyard.filter fun e => e.c == g % 4).map fun e => { e with read := 0, kept := [], staged := none } }
    let s := s.updLaunch u.launch fun l => { l with saved := l.saved ++ [sv] }
    let s := s.updCore k fun x =>
      { x with unpub := Tab.keep (fun _ b => match b with | some b => b.g != g | none => false) x.unpub
               banks := if pinned then x.banks else Tab.keep (fun _ o => o != some (u.launch, g % 4)) x.banks }
    s.leave g

/-- A context that can be saved is saved; in a paused partition only after a KVSYNC at PART (R389), whose release it makes first. -/
def State.trySave (s : State) (g : Nat) : State :=
  if !s.saveReady g then s
  else
    match (if (s.part (s.partOf (g / 4))).migration = 2 then s.releaseWait (g / 4) 4 else none) with
    | some s => s
    | none => s.save g

/-- Whether a core admits a saved unit's banks and tiles (R314): on its own core when they stayed there, and never on the core
that its segment failed on while its mask admits another in service (R357). -/
def State.admits (s : State) (l : Launch) (v : Saved) (k : Nat) : Bool :=
  let x := s.core k
  let other := (s.partCores l.p).any fun j => j != v.core && l.coreMask.testBit j && (s.core j).health != .out
  l.coreMask.testBit k && s.inPart l.p (k / 4) && x.health != .out &&
  (!v.pinned || k == v.core) && (!v.avoid || k != v.core || !other) &&
  (v.pinned || v.banks.all fun b => decide (b < 4 * x.split) && (Tab.get none x.banks b).isNone) &&
  ((v.tiles.all fun t => (Tab.get none x.tOwner t.index).isNone) && v.carries.all fun t => (Tab.get none x.tOwner (6 * t.index)).isNone)

/-- GANG_REENTRY (R314, R350): a saved unit resumes on context g: banks, tiles, carries, unpublished bytes and entries come
back, and the core's SI copies are discarded so that the context reads nothing older than before (log entry 26). -/
def State.resume (s : State) (l : Nat) (v : Saved) (g : Nat) : State :=
  let k := g / 4
  let c := g % 4
  let old := s.ctx g
  let s := s.setCtx g { v.ctx with preempt := false, avoid := false, attached := old.attached, perfSteps := old.perfSteps
                                   perfIssue := old.perfIssue, perfStall := old.perfStall, perfEng := old.perfEng }
  let s := s.updCore k fun x =>
    let x := v.tiles.foldl (fun (x : Core) t => { x.restoreTile t.index t with tOwner := Tab.set none x.tOwner t.index (some c) }) x
    let x := v.carries.foldl (fun (x : Core) t => x.restoreTile t.index t) x
    let fresh := v.entries.zipIdx.map fun (e : HEntry × Nat) => { e.1 with c := c, id := x.nextEntry + e.2, running := false }
    { x with banks := v.banks.foldl (fun t b => Tab.set none t b (some (l, c))) x.banks
             ram := v.ram.foldl (fun t e => Tab.set 0 t e.1 e.2) (if v.pinned then x.ram else Tab.keep (fun a _ => !v.banks.contains (a / 131072)) x.ram)
             unpub := v.unpub.foldl (fun t e => Tab.set none t e.1 (some { e.2 with g := g })) x.unpub
             halyard := x.halyard ++ fresh, nextEntry := x.nextEntry + fresh.length, siLines := [] }
  s.updLaunch l fun x => { x with saved := x.saved.filter fun w => w.unit.index != v.unit.index }

/-- A gang is to be pre-empted, whole (R311). -/
def State.preemptGang (s : State) (u : Unit) : State :=
  (List.range 128).foldl (fun s h =>
    match (s.ctx h).unit with
    | some w => if w.launch = u.launch ∧ w.gang = u.gang then s.updCtx h fun x => { x with preempt := true } else s
    | none => s) s

/-- Every context of a core is to be pre-empted, with its gang. -/
def State.preemptCore (s : State) (k : Nat) : State :=
  (List.range 4).foldl (fun s c => match (s.ctx (4 * k + c)).unit with | some u => s.preemptGang u | none => s) s

/-- The maps that wait for a core are written when it holds no context and runs no entry (R239). -/
def State.mapWrite (s : State) (k : Nat) : State :=
  match (s.core k).mapTo with
  | none => s
  | some (r, c, ck) =>
    if ((List.range 4).any fun d => (s.ctx (4 * k + d)).unit.isSome) || (s.core k).halyard.any fun h => h.running then s
    else (s.updCore k fun x => { x with rowMap := r, colMap := c, ckCol := ck, mapTo := none }).healthCheck

/-- The undispatched units of a running launch are dropped, and it is marked faulted; its units go on (R294, R358). -/
def State.dropRest (s : State) (i code : Nat) (f : FaultRec) : State :=
  match s.launches[i]? with
  | none => s
  | some l =>
    let first := l.outcome.isNone
    let (s, va) := if first then s.faultRecord l.p { f with launch := l.id } else (s, l.fault)
    let s := s.updLaunch i fun l =>
      { l with outstanding := l.outstanding - (l.total - l.next), next := l.total, outcome := some .faulted
               code := if first then code else l.code, fault := va }
    (s.coWrite i).settle i

/-- Launches that no core in service admits (R357, R358) end faulted, code range, verdict clean. Units of a take launch that servers
hold run where the servers do, and end there (R314). -/
def State.endStranded (s : State) (p : Nat) : State :=
  (List.range s.launches.length).foldl (fun s i =>
    match s.launches[i]? with
    | none => s
    | some l =>
      let some_ := (s.partCores p).any fun k => l.coreMask.testBit k && (s.core k).health != .out
      if l.p ≠ p ∨ l.stage = .final ∨ some_ then s
      else if l.stage = .running ∧ l.take then
        (if l.next < l.total then s.dropRest i 9 { code := 9, source := 2 } else s)
      else if l.stage = .running ∧ l.outstanding = 0 then s
      else s.endLaunch i 9 0 { code := 9, source := 2 }) s

/-- Banks that stayed on a core for units to resume there go to their save areas: the core is out of service (R313, R358). -/
def State.unpin (s : State) (k : Nat) : State :=
  let x := s.core k
  let free (v : Saved) : Saved := if v.pinned ∧ v.core = k then { v with pinned := false, ram := bankBytes x.ram v.banks } else v
  let gone := (s.launches.map fun l => (l.saved.filter fun v => v.pinned && v.core == k).map fun v => v.banks).flatten.flatten
  if gone = [] then s
  else
    let s : State := { s with launches := s.launches.map fun (l : Launch) => { l with saved := l.saved.map free } }
    s.updCore k fun x => { x with banks := Tab.keep (fun b _ => !gone.contains b) x.banks }

/-- A core is reefed, or taken out of service: for good, or when its second vector unit fails (R358). Counts, the replace request, its
contexts pre-empted, its queues emptied. -/
def State.reef (s : State) (k : Nat) (out : Bool) : State :=
  let p := s.partOf k
  let s := s.updCore k fun x => { x with health := if out || x.health != .whole then .out else .reefed, half := false }
  if (s.core k).health = .out then
    let s := (s.updCore k fun x => { x with queues := [] }).unpin k
    ((s.preemptCore k).endStranded p).healthCheck
  else s.healthCheck

end Sys2Proof.Machine
end

