-- ==== Sys2Proof/Machine/Clock.lean ====
section
/-! DEFINITION. One clock of a core: landing, bubbles, fetch, stage 3, freezes, issue, bundle end, the passing of issue (R13, R20, R78 to R85, R102, R222 to R232). -/

namespace Sys2Proof.Machine

/-- A bundle made ready to issue: its control word, its pop mask, its operations with their guards in slot order. -/
structure Prep where
  /-- The bundle's 256 bits. -/
  raw : Nat := 0
  ctl : Nat
  pop : Nat
  ops : List (Nat × Nat × SlotOp)

/-- The bundle a context issues next, or the trap of its fetch or decode. -/
abbrev Look := State → Nat → Except Trap Prep

/-- What the slot of a prepared operation sees. -/
def envOf (s : State) (g slot ctl : Nat) : Env := { g := g, pc := (s.ctx g).regs.pc, slot := slot, pre := s, ctl := ctl }

/-- The operations whose guards are true under the predicates of this step (R228). -/
def Prep.active (b : Prep) (s : State) (g : Nat) : List (Nat × SlotOp) :=
  b.ops.filterMap fun o => if (s.ctx g).regs.getP o.2.1 then some (o.1, o.2.2) else none

/-- Whether a bundle is a latency fence as it issues (R84, R227; log entry 87). -/
def Prep.fences (b : Prep) (s : State) (g : Nat) : Bool :=
  (b.ops.any fun o => o.2.2.fence) || (b.active s g).any fun o => o.2.fenceIf

/-- Registers and queues the bundle needs are ready (R13 stage 3, R127, R136, R227). -/
def sourcesReady (s : State) (g : Nat) (b : Prep) : Bool :=
  let c := s.ctx g
  let act := b.active s g
  (c.flights.all fun f => !f.old) &&
  (act.all fun o => ((o.2.reads (envOf s g o.1 b.ctl)) ++ (o.2.writes (envOf s g o.1 b.ctl))).all fun key => !c.isBusy key) &&
  (act.all fun o => o.2.queues.all fun q => Tab.get [] (s.core (g / 4)).queues q != []) &&
  ((List.range 4).all fun q => !b.pop.testBit q || Tab.get [] (s.core (g / 4)).queues q != [])

/-- The operations' own conditions, in slot order: none when all hold, else the state with what their waits set going. -/
def opsWait (s : State) (g ctl : Nat) : List (Nat × SlotOp) → Option State
  | [] => none
  | (slot, op) :: r =>
    match op.wait (envOf s g slot ctl) s with
    | none => opsWait s g ctl r
    | some s' =>
      match opsWait s' g ctl r with
      | none => some s'
      | some t => some t

/-- Stage 3 of R13: none when the bundle may issue, else the state while it waits. -/
def stage3 (s : State) (g : Nat) (b : Prep) : Option State :=
  if sourcesReady s g b then opsWait s g b.ctl (b.active s g) else some s

/-- A context that does not hold issue is ready when its next bundle could pass stage 3 (R225). Results that an ERET by the
debugger or a resume put back in flight wait for its first step, and hold nothing up before it (R224, R350; log entry 77). -/
def ready (look : Look) (s : State) (g : Nat) : Bool :=
  let c := s.ctx g
  let s := if c.flights = [] then s else s.updCtx g fun c => { c with flights := [] }
  c.unit.isSome && !c.stopped && !c.ending && !c.giving && c.pend.isNone &&
  (match look s g with
    | .error _ => true
    | .ok b => (stage3 s g b).isNone)

/-- The first ready context after c in the order of R225. -/
def nextReady (look : Look) (s : State) (k c : Nat) : Option Nat :=
  ([1, 2, 3].map fun d => (c + d) % 4).find? fun d => ready look s (4 * k + d)

/-- CONTEXT_SWITCH (R225, R226): the latches of an old holder that passed issue in a wait are emptied (R108), and the new holder
takes issue. -/
def State.switch (s : State) (k : Nat) : State :=
  match (s.core k).passTo with
  | none => s
  | some d =>
    let s := match (s.core k).holder with
      | some c => s.updCtx (4 * k + c) fun x => { x with regs := x.regs.emptyLatches, yielding := false }
      | none => s
    s.updCore k fun x =>
      { x with holder := some d, lastHolder := d, passTo := none, frozen := 0, thaw := false, perfSwitch := x.perfSwitch + 1 }

/-- Issue is to pass to another ready context at the next clock (R225). -/
def offer (look : Look) (s : State) (k c : Nat) : State :=
  match nextReady look s k c with
  | some d => s.updCore k fun x => { x with passTo := some d, lastHolder := c }
  | none => s

/-- The freeze of a bundle (R20): the largest number of distinct rows read from one bank, less one. -/
def freezeOf (s : State) (g : Nat) (b : Prep) : Nat :=
  let rows := (((b.active s g).map fun o => (o.2.reads (envOf s g o.1 b.ctl)).filter fun r => decide (r < 192)).flatten).eraseDups
  ((List.range 6).map fun bk => (rows.filter fun r => bankOf r == bk).length).foldl max 0 - 1

/-- The trap of a marked register an operation reads (R136). -/
def markTrap (e : Env) (op : SlotOp) : Option Trap :=
  (op.reads e).findSome? fun key =>
    match Tab.get none e.ctx.marks key with
    | some (.poisoned line) => some (e.trap .ue (BitVec.ofNat 64 (line * 128)))
    | some (.aborted va) => some (e.trap .window va)
    | none => none

/-- The rows an operation writes enter the segment's undo log (R353). -/
def logRows (s : State) (e : Env) (op : SlotOp) : Option State :=
  match (s.ctx e.g).seg with
  | none => some s
  | some q =>
    (((op.writes e).filter fun r => decide (r < 192)).foldl (fun (q : Option Seg) r =>
      match q with
      | none => none
      | some q => q.log ⟨true, r, (s.ctx e.g).getV r, false⟩) (some q)).map fun q => s.updCtx e.g fun c => { c with seg := some q }

/-- The operations' effects in slot order, each reading the state before the bundle; the first failure stands (R13, R344). -/
def issueOps (pre : State) (g ctl : Nat) : List (Nat × SlotOp) → State → Except Trap State
  | [], s => .ok s
  | (slot, op) :: r, s =>
    let e := envOf pre g slot ctl
    match markTrap e op with
    | some t => .error t
    | none =>
      match logRows s e op with
      | none => .error (e.trap .segOverflow)
      | some s =>
        match op.issue e s with
        | .error t => .error t
        | .ok s => issueOps pre g ctl r s

/-- The innermost loops at their end bundle (R80): the next bundle's address and the levels left. Outer first. -/
def loopTurn (pc next : Word) : List Loop → Word × List Loop
  | [] => (next, [])
  | [l] =>
    if pc = l.stop then
      (if l.left.toNat > 1 then (l.start, [{ l with left := l.left - 1 }]) else (next, []))
    else (next, [l])
  | o :: i :: r =>
    if pc = i.stop then
      if i.left.toNat > 1 then (i.start, o :: { i with left := i.left - 1 } :: r)
      else if pc = o.stop then
        (if o.left.toNat > 1 then (o.start, [{ o with left := o.left - 1 }]) else (next, []))
      else (next, [o])
    else (next, o :: i :: r)

/-- LOOP_TURN at bundle end when no branch was taken (R80). -/
def Ctx.turn (c : Ctx) (pc : Word) : Ctx :=
  if c.bubble ≠ 0 then c
  else
    let (n, ls) := loopTurn pc c.regs.pc c.regs.loops
    { c with regs := { c.regs with pc := n, loops := ls } }

/-- POP_MASK at bundle end (R9). -/
def State.pops (s : State) (k pop : Nat) : State :=
  (List.range 4).foldl (fun s q =>
    if pop.testBit q then s.updCore k fun x => { x with queues := Tab.set [] x.queues q (Tab.get [] x.queues q).tail } else s) s

/-- A segment's accounts of an issued bundle (R355): steps, and the control signature outside loop bodies. `wasLoop`: the
bundle held a LOOP; `depth` and `left`: loop levels before it and after it. Levels are a stack: those of before the segment are the
first `depth0`, and fewer once one of them has gone. -/
def Seg.account (q : Seg) (ctl depth left : Nat) (wasLoop taken : Bool) : Seg :=
  let body := decide (q.depth0 < depth)
  let q := { q with steps := q.steps + 1, depth0 := min q.depth0 left }
  if body then q
  else { q with ctl := crcBytes q.ctl (natBytes 4 ctl ++ [if taken && !wasLoop then 1 else 0]) }

/-- Whether a control word holds a LOOP (R22). -/
def isLoop (ctl : Nat) : Bool := bits ctl 19 5 == 8

/-- A loop of a segment starts an iteration (R355). -/
def Seg.iter (q : Seg) (start : Word) : Seg :=
  match q.loopPc with
  | a :: rest => if start = a + 32 then { q with n0 := q.n0 + 1 }
                 else if rest.head? = some (start - 32) then { q with n1 := q.n1 + 1 } else q
  | [] => q

/-- Iterations that the bundle's end starts: the levels whose remaining count fell, or were pushed. -/
def Ctx.countIter (c : Ctx) (before : List Loop) : Ctx :=
  match c.seg with
  | none => c
  | some q =>
    let q := c.regs.loops.foldl (fun q l =>
      if before.contains l then q
      else q.iter l.start) q
    { c with seg := some q }

/-- Whether a debugger's STEP applies at a bundle: not in a segment, nor between its runs (R102, R354). -/
def Ctx.steps (c : Ctx) : Bool := c.regs.step && !c.regs.inSeg && c.seg.isNone

/-- The trap after a bundle (R87, R102): TRAP or BKPT before STEP. -/
def Ctx.afterIssue (c : Ctx) : Option Trap :=
  match c.pend with
  | some t => some t
  | none =>
    if c.steps && !c.ending && c.unit.isSome then
      some { code := .step, slot := 255, pc := c.regs.pc, epc := c.regs.pc }
    else none

/-- The pc moves on as a bundle issues (R13); results issued before a fence are marked (R227), and the offer of a YIELD ends
with the next bundle (R85, R226). -/
def Ctx.moveOn (fence : Bool) (c : Ctx) : Ctx :=
  { c with flights := c.flights.map fun f => { f with old := f.old || fence }, waited := false, yielding := false
           regs := { c.regs with pc := c.regs.pc + 32 } }

/-- The id8 of the RDV a bundle holds (R90). -/
def Prep.tells (b : Prep) : Nat := (b.ops.map fun o => o.2.2.tells).foldl max 0

/-- A freeze that is over is over. -/
def State.unthaw (s : State) (k : Nat) : State := if (s.core k).thaw then s.updCore k fun x => { x with thaw := false } else s

/-- The issue step of a bundle (R13 stages 5 to 7). A bundle that traps takes no step: the clock is of none of R222's kinds, nothing
advances and no counter of R219 counts it (log entry 90). -/
def issueStep (look : Look) (s : State) (g : Nat) (b : Prep) : State :=
  let k := g / 4
  let c0 := s.ctx g
  let pc := c0.regs.pc
  let act := b.active s g
  let fence := c0.waited || b.fences s g
  let pre := s
  let s := s.updCtx g (Ctx.moveOn fence)
  match issueOps pre g b.ctl act s with
  | .error t => (pre.unthaw k).raise g (t.tell b.tells)
  | .ok s =>
    let s := if b.pop = 0 then s else s.pops k b.pop
    let s := if (s.ctx g).regs.loops = [] then s else s.updCtx g fun c => c.turn pc
    let s := if (s.ctx g).seg.isNone then s else
      (s.updCtx g fun c =>
        { c with parity := false, seg := c.seg.map fun q =>
            { q.account b.ctl c0.regs.loops.length c.regs.loops.length (isLoop b.ctl) (c.bubble != 0) with dataErr := q.dataErr || c.parity } }).updCtx g
          fun c => c.countIter c0.regs.loops
    let s := s.updCtx g fun c => { c.advance with perfIssue := c.perfIssue + 1 }
    let s := s.unthaw k
    match (s.ctx g).afterIssue with
    | some t => s.raise g (t.tell b.tells)
    | none => s

/-- Clocks of a step on a core (R232). -/
def Core.weight (x : Core) : Word := if x.health = .reefed then 2 else 1

/-- A wait step (R222, R225): what the wait set going stands, results advance, and issue passes when nothing of the
context is in flight and another is ready. Stepped, it ends in a STEP trap (R102). -/
def waitStep (look : Look) (s : State) (g tells : Nat) : State :=
  if (s.ctx g).unit.isNone then s else
  let quiet := (s.ctx g).quiet
  let s := s.updCtx g fun c => { c.advance with waited := true, perfStall := c.perfStall + (s.core (g / 4)).weight }
  let s := s.unthaw (g / 4)
  if (s.ctx g).steps then
    s.raise g (Trap.tell tells { code := .step, slot := 255, pc := (s.ctx g).regs.pc, epc := (s.ctx g).regs.pc, blocked := true })
  else if quiet then offer look s (g / 4) (g % 4) else s

/-- A step after a YIELD in which the next bundle waits for nothing and another context is ready (R85, R225, R231, log entry
72): results advance, and issue passes once nothing of the context is in flight. -/
def yieldStep (look : Look) (s : State) (g : Nat) : State :=
  let quiet := (s.ctx g).quiet
  let s := s.updCtx g Ctx.advance
  if (s.ctx g).steps then
    s.raise g { code := .step, slot := 255, pc := (s.ctx g).regs.pc, epc := (s.ctx g).regs.pc }
  else if quiet then offer look s (g / 4) (g % 4) else s

/-- The holder's clock once its due results have landed: a bubble, a wait, a frozen clock or an issue (R222). After the freeze the
bundle issues as it passed stage 3, and nothing parts the two (R229). One that traps at its fetch or decode takes no step (log entry
90). -/
def holderStep (look : Look) (s : State) (g : Nat) : State :=
  let k := g / 4
  let c := s.ctx g
  if c.bubble ≠ 0 then s.updCtx g fun c => { c.advance with bubble := c.bubble - 1, seg := c.seg.map fun q => { q with steps := q.steps + 1 } }
  else
    let passing := c.yielding && !(s.core k).thaw && (nextReady look s k (g % 4)).isSome
    match look s g with
    | .error t => if passing then yieldStep look s g else (s.unthaw k).raise g t
    | .ok b =>
      match (if (s.core k).thaw then none else stage3 s g b) with
      | some s' => waitStep look s' g b.tells
      | none =>
        if passing then yieldStep look s g
        else
          let f := freezeOf s g b
          if f ≠ 0 ∧ !(s.core k).thaw then
            s.updCore k fun x => { x with frozen := f - 1, thaw := true, fetched := b.raw, perfFreeze := x.perfFreeze + x.weight }
          else issueStep look s g b

/-- The scopes at which a context's DONE releases: its launch's, and those of launches it has taken units of (R86, R212). -/
def State.doneScopes (s : State) (g : Nat) : List Nat :=
  let sc := fun u : Unit => match s.launches[u.launch]? with | some l => l.scope | none => 0
  (match (s.ctx g).unit with | some u => [sc u] | none => []) ++ (s.ctx g).taken.map sc

/-- The end of a unit whose DONE has issued: the results of its bundle landed, its words published, the release at its launch's scope complete (R86, R329). -/
def State.doneReady (s : State) (g : Nat) : Bool :=
  let k := g / 4
  (s.ctx g).quiet &&
  ((s.core k).unpub.all fun e => match e.2 with | some u => u.g != g | none => true) &&
  (s.reqs.all fun r => r.g != g) &&
  ((s.doneScopes g).all fun n => s.released k n) &&
  ((s.core k).halyard.all fun e => e.c != g % 4)

/-- What happens to a context whether or not it holds issue: a waiting trap, a DONE whose release ends, a wait evaluated
(R83, R86, R225, R231). A bundle of a context that gives up its core waits no more, but it is counted while its sources or condition
are not ready. -/
def poll (look : Look) (s : State) (g : Nat) (held : Bool) : State :=
  let c := s.ctx g
  if c.unit.isNone ∨ c.stopped then s
  else
    match c.pend with
    | some t => if s.trapReady g then s.enterTrap g t else s
    | none =>
      if c.ending then
        (if s.doneReady g then s.finishUnit g
         else s.publish (g / 4) fun a u => u.g == g || (s.doneScopes g).any fun n => s.inRange (s.partOf (g / 4)) n a)
      else if c.preempt && s.saveReady g then s.trySave g
      else if held && !c.giving then s
      else
        match look s g with
        | .error _ => s
        | .ok b =>
          match stage3 s g b with
          | none => s
          | some s' => (if c.giving then s else s').updCtx g fun c => { c with perfStall := c.perfStall + 1 }

/-- A context that has no more steps where it is: stopped by the debugger, waiting for its loads before a trap or before it is
saved. What it has in flight stays as the record will keep it (R224, R230, R313, R350; log entry 77). -/
def Ctx.off (c : Ctx) : Bool := c.stopped || c.giving || c.pend.isSome

/-- An unheld clock (R222, R225): the first ready context takes issue, the last holder after the others. A reefed core's switch
takes one clock more (R232). -/
def unheldClock (look : Look) (s : State) (k : Nat) : State :=
  let last := (s.core k).lastHolder
  let next := match nextReady look s k last with
    | some d => some d
    | none => if ready look s (4 * k + last) then some last else none
  match next with
  | none => s
  | some d =>
    let s := s.updCore k fun x => { x with passTo := some d }
    if (s.core k).health = .reefed then s.updCore k fun x => { x with half := true } else s.switch k

/-- The clock after a DONE has issued (R86, R222): a wait step, in which the results of its bundle advance; issue passes once they
have landed. -/
def endingStep (look : Look) (s : State) (g : Nat) : State :=
  let quiet := (s.ctx g).quiet
  let s := s.updCtx g Ctx.advance
  if quiet then offer look s (g / 4) (g % 4) else s

/-- One clock of core k (R222). On a core out of service a context goes on to the end of its open segment (R312, R358); a reefed core
takes two clocks a step (R232). -/
def coreClock (look : Look) (k : Nat) (s : State) : State :=
  let x := s.core k
  let s := if x.moving = 0 then s else s.updCore k fun x => { x with moving := 0 }
  let s := if x.ports = [] then s else s.updCore k fun x => { x with ports := [] }
  let s := ((List.range 4).foldl (fun s c => poll look s (4 * k + c) ((s.core k).holder == some c && (s.core k).passTo.isNone)) s).mapWrite k
  if x.health = .reefed ∧ !x.half ∧ ((s.core k).holder.isSome ∨ (s.core k).passTo.isSome) then
    s.updCore k fun x => { x with half := true }
  else
    let s := if (s.core k).half then s.updCore k fun x => { x with half := false } else s
    if (s.core k).passTo.isSome then s.switch k
    else
      match (s.core k).holder with
      | none => unheldClock look s k
      | some c =>
        let g := 4 * k + c
        if (s.core k).frozen ≠ 0 then
          s.updCore k fun x => { x with frozen := x.frozen - 1, perfFreeze := x.perfFreeze + x.weight }
        else if (s.ctx g).off && (s.ctx g).bubble == 0 && !(s.core k).thaw then
          unheldClock look (s.updCore k fun x => { x with holder := none, lastHolder := c }) k
        else
          let t := landDue s g
          (if (s.ctx g).ending then endingStep look t g else holderStep look t g).takePorts g (portsDue s g)

end Sys2Proof.Machine
end

