-- ==== Sys2Proof/Machine/ControlOps.lean ====
section
/-! DEFINITION. The control slot: what each control operation waits for and does (R77 to R91, R352 to R357). -/

namespace Sys2Proof.Machine

/-- A branch target P + 32 × offset of an n-bit signed offset (R22). -/
def branchTo (pc : Word) (off n : Nat) : Word := pc + 32 * BitVec.ofInt 64 (signExt off n)

/-- R82: a taken branch out of a level's body pops it and any level inside it. Levels are outer first. -/
def keepLoops (target : Word) : List Loop → List Loop
  | [] => []
  | l :: r => if l.start.toNat ≤ target.toNat ∧ target.toNat ≤ l.stop.toNat then l :: keepLoops target r else []

/-- A taken branch (R78): the target follows after two bubble steps. `pop` for the branches that leave loops (R82). -/
def Env.jump (e : Env) (s : State) (target : Word) (pop : Bool) : State :=
  s.updCtx e.g fun c =>
    { c with bubble := 2, regs := { c.regs with pc := target, loops := if pop then keepLoops target c.regs.loops else c.regs.loops } }

/-- A branch through a register: a target with bits [4:0] not zero raises ALIGN at issue (R79). -/
def Env.jumpReg (e : Env) (s : State) (target : Word) (pop : Bool) : Except Trap State :=
  if target.toNat % 32 = 0 then .ok (e.jump s target pop) else .error (e.trap .align target)

/-- bt7 := P + 32 at n+1 (R77, R78). -/
def Env.link (e : Env) (s : State) : State := e.flyK s 6 1 7 (e.pc + 32)

def braOp (off : BitVec 19) : SlotOp := { issue := fun e s => .ok (e.jump s (branchTo e.pc off.toNat 19) true) }

def brcOp (p : BitVec 4) (off : BitVec 15) : SlotOp :=
  { issue := fun e s => .ok (if e.regs.getP p.toNat then e.jump s (branchTo e.pc off.toNat 15) true else s) }

/-- The first true test of a BRM picks bt((k + i) mod 8) (R77). -/
def brmOp (t0 t1 t2 t3 : BitVec 4) (bt : BitVec 3) : SlotOp :=
  { issue := fun e s =>
      match [t0, t1, t2, t3].findIdx? fun t => e.regs.getP t.toNat with
      | none => .ok s
      | some i => e.jumpReg s (e.regs.getBt ((bt.toNat + i) % 8)) true }

def brrOp (bt : BitVec 3) : SlotOp := { issue := fun e s => e.jumpReg s (e.regs.getBt bt.toNat) true }

def callOp (off : BitVec 19) : SlotOp :=
  { issue := fun e s => .ok (e.link (e.jump s (branchTo e.pc off.toNat 19) false)) }

def callrOp (bt : BitVec 3) : SlotOp :=
  { issue := fun e s =>
      match e.jumpReg s (e.regs.getBt bt.toNat) false with
      | .error t => .error t
      | .ok s => .ok (e.link s) }

def retOp : SlotOp := { issue := fun e s => e.jumpReg s (e.regs.getBt 7) false }

/-- LOOP in a segment: its address among the first two, and a count of 0 counted (R355). -/
def Seg.sawLoop (q : Seg) (pc : Word) (zero : Bool) : Seg :=
  let q := if q.loopPc.contains pc then q else { q with loopPc := q.loopPc ++ [pc] }
  if !zero then q
  else if q.loopPc.head? = some pc then { q with z0 := q.z0 + 1 }
  else if q.loopPc.tail.head? = some pc then { q with z1 := q.z1 + 1 }
  else q

/-- LOOP (R80, R81): pushes a level of n bundles run s(cnt) times; a count of 0 skips the body as a taken branch. -/
def loopOp (cnt : BitVec 6) (len : BitVec 13) : SlotOp :=
  { reads := fun _ => [sKey cnt.toNat]
    issue := fun e s =>
      let n := e.S cnt
      let start := e.pc + 32
      let stop := e.pc + BitVec.ofNat 64 (32 * len.toNat)
      let ls := e.regs.loops
      let inner := match ls.getLast? with
        | some o => decide (o.start.toNat ≤ start.toNat) && decide (stop.toNat ≤ o.stop.toNat)
        | none => true
      if ls.length ≥ 2 ∨ !inner ∨ ls.any (fun l => l.stop == e.pc) then .error (e.trap .illegalOperand)
      else
        let s := if (s.ctx e.g).seg.isNone then s else s.updCtx e.g fun c => { c with seg := c.seg.map fun q => q.sawLoop e.pc (n == 0) }
        if n = 0 then .ok (e.jump s (stop + 32) false)
        else .ok (s.updCtx e.g fun c => c.updRegs fun r => { r with loops := r.loops ++ [⟨start, stop, n⟩] }) }

/-- A condition on a 64-bit word at home, evaluated while the bundle waits; a faulting address lets the bundle issue and
trap there (R83). The read at home does not pass what the context and its core sent there before (R323, R331). -/
def wordWait (e : Env) (s : State) (va : Word) (scope : Nat) (cond : Word → Bool) : Option State :=
  match s.resolve e.p va 8 .read with
  | .error _ => none
  | .ok pa =>
    if s.homeClear e.g pa && cond (BitVec.ofNat 64 (s.homeN pa 8)) then acquireWait s e.g scope else some s

/-- The issue of such a wait: its address checks (R83), then the acquire; copies of the core are no older than what it saw (R322). -/
def wordIssue (e : Env) (s : State) (va : Word) (scope : Nat) : Except Trap State :=
  match s.resolve e.p va 8 .read with
  | .error t => .error { e.trap t va with gate := t == .window }
  | .ok pa => .ok ((s.patchCopies e.k (addrBytes pa (s.homeBytes pa 8))).acquire e.k scope)

def waitCtrGeOp (scope : BitVec 3) (sa sb : BitVec 6) : SlotOp :=
  { reads := fun _ => [sKey sa.toNat, sKey sb.toNat], fence := true
    wait := fun e s => wordWait e s (e.S sa) scope.toNat fun w => decide ((e.S sb).toNat ≤ w.toNat)
    issue := fun e s => wordIssue e s (e.S sa) scope.toNat }

/-- The latest command issued to a channel has started: none waits for it (R83, R202). -/
def State.chanStarted (s : State) (k ch : Nat) : Bool :=
  (Tab.get Chan.idle (s.core k).chans ch).wait.isEmpty && (s.core k).engq.all fun c => !(1 ≤ c.op && c.op ≤ 3 && c.imm % 16 == ch)

/-- A field of a command's record, and a signed 32-bit one. -/
def EngCmd.n (c : EngCmd) (off n : Nat) : Nat := recN c.record off n
def EngCmd.s32 (c : EngCmd) (off : Nat) : Int := signExt (c.n off 4) 32

/-- COPY, GATH and SCAT, and their channel (R199). -/
def EngCmd.isCopy (c : EngCmd) : Bool := decide (1 ≤ c.op) && decide (c.op ≤ 3)
def EngCmd.chan (c : EngCmd) : Nat := c.imm % 16
/-- The length of the delivery order in bytes (R200). -/
def EngCmd.total (c : EngCmd) : Nat := c.n 24 4 * c.n 28 4 * c.n 32 4
/-- Index i of a gather or scatter, read from the issuing core's scratchpad (R199). -/
def EngCmd.idx (c : EngCmd) (ram : Tab Byte) (i : Nat) : Nat :=
  if c.n 48 1 = 0 then Mem.readN ram (c.n 36 8 + 4 * i) 4 else Mem.readN ram (c.n 36 8 + 8 * i) 8

/-- Source and destination address of byte j of the delivery order (R200). -/
def EngCmd.addrs (c : EngCmd) (ram : Tab Byte) (j : Nat) : Nat × Nat :=
  let len := c.n 24 4
  let i := j / len
  let b := j % len
  let at_ (x : Int) : Nat := wrap 64 x
  match c.op with
  | 1 =>
    let i1 : Int := (i % c.n 28 4 : Nat)
    let i2 : Int := (i / c.n 28 4 : Nat)
    (at_ (c.n 8 8 + i2 * c.s32 40 + i1 * c.s32 36 + b), at_ (c.n 16 8 + i2 * c.s32 48 + i1 * c.s32 44 + b))
  | 2 => (at_ (c.n 8 8 + (c.idx ram i : Int) * c.s32 44 + b), at_ (c.n 16 8 + i * len + b))
  | _ => (at_ (c.n 8 8 + i * len + b), at_ (c.n 16 8 + (c.idx ram i : Int) * c.s32 44 + b))

/-- Start addresses of the runs or elements. -/
def EngCmd.runs (c : EngCmd) (ram : Tab Byte) : List (Nat × Nat) :=
  (List.range (c.n 28 4 * c.n 32 4)).map fun i => c.addrs ram (i * c.n 24 4)

/-- Cores a copy writes to (R199 mcast). -/
def EngCmd.targets (c : EngCmd) (k : Nat) : List Nat :=
  if c.n 4 1 = 0 then [k] else ((List.range 4).filter fun i => (c.n 4 1).testBit i).map fun i => 4 * (k / 4) + i

/-- Virtual addresses of a partition's pages that map a physical byte. -/
def State.virtAny (s : State) (p pa : Nat) (f : Nat → Bool) : Bool :=
  (s.part p).pages.any fun e =>
    match e.2 with
    | none => false
    | some m =>
      let base := pagePa m 0
      decide (base ≤ pa) && decide (pa < base + 65536) && f ((if e.1 < 2 ^ 38 then 0 else 2 ^ 64 - 2 ^ 55) + e.1 * 65536 + (pa - base))

/-- Global bytes below the write pointer of a command's delivery order, as runs of virtual addresses (R200, R202). -/
def EngCmd.written (c : EngCmd) (ram : Tab Byte) (wp : Nat) : List (Nat × Nat) :=
  if c.n 1 1 ≠ 0 then []
  else
    (((c.runs ram).zipIdx).map fun r => (r.1.2, min (c.n 24 4) (wp - r.2 * c.n 24 4))).filter fun r => r.2 != 0

/-- The acquire of a WP_GE: copies of lines of the written range are discarded, within the scope's range (R83, R202, R325). -/
def State.acquireWritten (s : State) (k scope ch : Nat) : State :=
  let x := Tab.get Chan.idle (s.core k).chans ch
  match x.last with
  | none => s
  | some c =>
    let p := s.partOf k
    let rs := c.written (s.core k).ram x.wp.toNat
    let hit (line : Nat) : Bool := s.virtAny p (line * 128) fun v => rs.any fun r => decide (r.1 < v + 128) && decide (v < r.1 + r.2)
    if scope ≤ 1 then s
    else
      s.updCore k fun x =>
        { x with siLines := Tab.keep (fun line _ => !(s.inRange p scope (line * 128) && hit line)) x.siLines }

/-- WP_GE: the write pointer of a copy channel of this core (R83, R202). -/
def waitWpGeOp (scope : BitVec 3) (sa sb : BitVec 6) : SlotOp :=
  { reads := fun _ => [sKey sa.toNat, sKey sb.toNat], fence := true
    wait := fun e s =>
      let ch := (e.S sa).toNat
      if ch > 15 then none
      else if s.chanStarted e.k ch ∧ (e.S sb).toNat ≤ (Tab.get Chan.idle (s.core e.k).chans ch).wp.toNat then acquireWait s e.g scope.toNat
      else some s
    issue := fun e s =>
      if (e.S sa).toNat > 15 then .error (e.trap .illegalOperand) else .ok (s.acquireWritten e.k scope.toNat (e.S sa).toNat) }

def waitCoDoneOp (scope : BitVec 3) (sa : BitVec 6) : SlotOp :=
  { reads := fun _ => [sKey sa.toNat], fence := true
    wait := fun e s => wordWait e s (e.S sa) scope.toNat coFinal
    issue := fun e s => wordIssue e s (e.S sa) scope.toNat }

def waitBanksOp (sa : BitVec 6) : SlotOp :=
  { reads := fun _ => [sKey sa.toNat], fence := true
    wait := fun e s =>
      let m := (e.S sa).toNat
      if (List.range 32).all fun b =>
          !m.testBit b || !(s.core e.k).moving.getLsbD b && (match Tab.get none (s.core e.k).banks b with
            | none => true
            | some (l, c) => some l == (s.ctx e.g).launch && c == e.c)
      then none else some s
    issue := fun _ s => .ok s }

def waitTilesOp (sa : BitVec 6) : SlotOp :=
  { reads := fun _ => [sKey sa.toNat], fence := true
    wait := fun e s =>
      if (List.range 12).all fun t => !(e.S sa).toNat.testBit t || !(s.core e.k).tileBusy t then none else some s
    issue := fun _ s => .ok s }

def waitQneOp (sa : BitVec 6) : SlotOp :=
  { reads := fun _ => [sKey sa.toNat], fence := true
    wait := fun e s =>
      if (List.range 4).all fun q => !(e.S sa).toNat.testBit q || Tab.get [] (s.core e.k).queues q != [] then none else some s
    issue := fun _ s => .ok s }

def waitTimeOp (sa : BitVec 6) : SlotOp :=
  { reads := fun _ => [sKey sa.toNat], fence := true
    wait := fun e s => if (e.S sa).toNat ≤ s.timebase.toNat then none else some s
    issue := fun _ s => .ok s }

def yieldOp : SlotOp := { fence := true, issue := fun e s => .ok (s.updCtx e.g fun c => { c with yielding := true }) }

/-- Whether a context's results have landed: the wait of DONE, SEGB, SEGE and ERET. -/
def quietWait (s : State) (g : Nat) : Option State := if (s.ctx g).quiet then none else some s

/-- DONE (R86): waits for the context's results and array operations; in a segment it is illegal at issue. Its release and
what follows run as `poll` gives. -/
def doneOp : SlotOp :=
  { wait := fun e s =>
      if (s.ctx e.g).regs.inSeg then none
      else if (s.ctx e.g).quiet && (s.core e.k).halyard.all fun h => h.c != e.c then none else some s
    issue := fun e s =>
      if e.regs.inSeg then .error (e.trap .illegalOperand)
      else .ok (s.updCtx e.g fun c => { c with ending := true }) }

/-- TRAP and BKPT complete their bundle and then raise SOFT or BKPT at P + 32 (R87). -/
def Env.after (e : Env) (s : State) (code : TrapCode) (code8 : Nat) : State :=
  s.updCtx e.g fun c => { c with pend := some { code := code, slot := 0, code8 := code8, pc := e.pc + 32, epc := e.pc + 32 } }

def trapOp (code : BitVec 8) : SlotOp := { issue := fun e s => .ok (e.after s .soft code.toNat) }
def bkptOp (code : BitVec 8) : SlotOp := { issue := fun e s => .ok (e.after s .bkpt code.toNat) }

/-- ERET (R88, R348): a latency fence; the record comes back, its results counted from the first resumed bundle, so that
the ERET's own step and its two bubbles do not count (R350). The latches come back first: what a vector slot of its own bundle captures
replaces them (R106, R108; log entry 89). What the context still has on its way to the record's home is seen. -/
def eretOp : SlotOp :=
  { fence := true
    wait := fun e s =>
      match quietWait s e.g with
      | some s => some s
      | none => if s.reqs.any fun r => r.g == e.g && (r.kind == .atom || r.atomic) then some s else none
    issue := fun e s =>
      if !e.regs.inHandler ∨ e.regs.inSeg then .error (e.trap .illegalOperand)
      else
        .ok ((s.leaveTrap e.g e.pc).updCtx e.g fun c =>
          if c.unit.isNone then c
          else { c with bubble := 2, flights := c.flights.map fun f => { f with remain := f.remain + 3 } }) }

/-- SEGB (R39, R89, R353): waits for earlier results, reads its .segtab entry, takes the checkpoint. -/
def segbOp (idx : BitVec 16) : SlotOp :=
  { fence := true
    wait := fun e s => quietWait s e.g
    issue := fun e s =>
      if e.regs.inSeg ∨ e.regs.segCount.toNat ≤ idx.toNat then .error (e.trap .illegalOperand)
      else
        let va := e.regs.segBase + BitVec.ofNat 64 (32 * idx.toNat)
        match s.resolve e.p va 32 .read with
        | .error t => .error { e.trap t va with gate := t == .window }
        | .ok _ =>
          let d := bytesNat (s.seenVa e.k e.p va 32)
          if BitVec.ofNat 64 (field d 0 64) ≠ e.pc - e.regs.segText then .error (e.trap .illegalOperand)
          else
            let q : Seg :=
              match (s.ctx e.g).seg with
              | some q => q
              | none => { run := 1, check := e.regs, base := field d 64 32, loop0 := field d 96 32, loop1 := field d 128 32
                          signature := BitVec.ofNat 32 (field d 160 32), segbPc := e.pc, depth0 := e.regs.loops.length }
            .ok (s.updCtx e.g fun c =>
              { c with regs := { c.regs with inSeg := true }, parity := false
                       seg := some { q with check := e.regs, aside := c.aside, loads := if q.run = 1 then [] else q.loads, steps := 0, loopPc := [], n0 := 0, n1 := 0, z0 := 0, z1 := 0
                                            ctl := 0xFFFFFFFF, res := 0xFFFFFFFF, stores := [], undo := [], tiles := []
                                            firstEntry := (s.core e.k).nextEntry
                                            deferred := [], dataErr := false
                                            replay := if q.run = 1 then [] else q.loads, depth0 := e.regs.loops.length } }) }

/-- RDV (R90): blocks while another context of the launch's gang on this quad reruns a segment, never for its own rerun (log
entry 76). -/
def rdvOp (id : BitVec 8) : SlotOp :=
  { tells := id.toNat
    wait := fun e s =>
      if (s.gangOn e.g 2).any fun h => h != e.g && (match (s.ctx h).seg with | some q => decide (2 ≤ q.run) | none => false)
      then some s else none
    issue := fun _ s => .ok s }

/-- PHASE (R91): a release, then an acquire, at the scope. -/
def phaseOp (scope : BitVec 3) : SlotOp :=
  { fence := true
    wait := fun e s =>
      match s.releaseWait e.k scope.toNat with
      | some s => some s
      | none => acquireWait s e.g scope.toNat
    issue := fun e s => .ok (s.acquire e.k scope.toNat) }

end Sys2Proof.Machine
end

