-- ==== Sys2Proof/Machine/Trans.lean ====
section
/-! DEFINITION. The transcendentals EXP2, LOG2, RCP and RSQ by the algorithms of R60 to R64, over FP32 codes, with their tables (log entry 19). -/

namespace Sys2Proof.Machine

def tabT0 : List Nat :=
  [0x3F800000, 0x3F8164D2, 0x3F82CD87, 0x3F843A29, 0x3F85AAC3, 0x3F871F62, 0x3F88980F, 0x3F8A14D5,
   0x3F8B95C2, 0x3F8D1ADF, 0x3F8EA43A, 0x3F9031DC, 0x3F91C3D3, 0x3F935A2B, 0x3F94F4F0, 0x3F96942D,
   0x3F9837F0, 0x3F99E046, 0x3F9B8D3A, 0x3F9D3EDA, 0x3F9EF532, 0x3FA0B051, 0x3FA27043, 0x3FA43516,
   0x3FA5FED7, 0x3FA7CD94, 0x3FA9A15B, 0x3FAB7A3A, 0x3FAD583F, 0x3FAF3B79, 0x3FB123F6, 0x3FB311C4]
def tabT1 : List Nat :=
  [0x3FB504F3, 0x3FB6FD92, 0x3FB8FBAF, 0x3FBAFF5B, 0x3FBD08A4, 0x3FBF179A, 0x3FC12C4D, 0x3FC346CD,
   0x3FC5672A, 0x3FC78D75, 0x3FC9B9BE, 0x3FCBEC15, 0x3FCE248C, 0x3FD06334, 0x3FD2A81E, 0x3FD4F35B,
   0x3FD744FD, 0x3FD99D16, 0x3FDBFBB8, 0x3FDE60F5, 0x3FE0CCDF, 0x3FE33F89, 0x3FE5B907, 0x3FE8396A,
   0x3FEAC0C7, 0x3FED4F30, 0x3FEFE4BA, 0x3FF28177, 0x3FF5257D, 0x3FF7D0DF, 0x3FFA83B3, 0x3FFD3E0C]
/-- T[j] = 2^(j/64) as FP32 codes (R61). -/
def tabT (j : Nat) : Nat := (tabT0 ++ tabT1).getD j 0

def tabLR0 : List Nat :=
  [0x3F800000, 0x3F7C0FC1, 0x3F783E10, 0x3F74898D, 0x3F70F0F1, 0x3F6D7304, 0x3F6A0EA1, 0x3F66C2B4,
   0x3F638E39, 0x3F607038, 0x3F5D67C9, 0x3F5A740E, 0x3F579436, 0x3F54C77B, 0x3F520D21, 0x3F4F6475,
   0x3F4CCCCD, 0x3F4A4588, 0x3F47CE0C, 0x3F4565C8, 0x3F430C31, 0x3F40C0C1, 0x3F3E82FA, 0x3F3C5264,
   0x3F3A2E8C, 0x3F381703, 0x3F360B61, 0x3F340B41, 0x3F321643, 0x3F302C0B, 0x3F2E4C41, 0x3F2C7692]
def tabLR1 : List Nat :=
  [0x3F2AAAAB, 0x3F28E83F, 0x3F272F05, 0x3F257EB5, 0x3F23D70A, 0x3F2237C3, 0x3F20A0A1, 0x3F1F1166,
   0x3F1D89D9, 0x3F1C09C1, 0x3F1A90E8, 0x3F191F1A, 0x3F17B426, 0x3F164FDA, 0x3F14F209, 0x3F139A86,
   0x3F124925, 0x3F10FDBC, 0x3F0FB824, 0x3F0E7835, 0x3F0D3DCB, 0x3F0C08C1, 0x3F0AD8F3, 0x3F09AE41,
   0x3F088889, 0x3F0767AB, 0x3F064B8A, 0x3F053408, 0x3F042108, 0x3F03126F, 0x3F020821, 0x3F010204]
/-- LR[j] = 1/(1 + j/64) (R62). -/
def tabLR (j : Nat) : Nat := (tabLR0 ++ tabLR1).getD j 0

def tabLG0 : List Nat :=
  [0x00000000, 0x3CB73CB3, 0x3D35D690, 0x3D8759C9, 0x3DB31FB7, 0x3DDE420E, 0x3E0462C4, 0x3E195751,
   0x3E2E00D1, 0x3E42615F, 0x3E567AEF, 0x3E6A4F70, 0x3E7DE0B5, 0x3E88983F, 0x3E92203D, 0x3E9B8925,
   0x3EA4D3C2, 0x3EAE00D1, 0x3EB71110, 0x3EC0052D, 0x3EC8DDD3, 0x3ED19BAF, 0x3EDA3F60, 0x3EE2C97E,
   0x3EEB3A9E, 0x3EF39355, 0x3EFBD42A, 0x3F01FED4, 0x3F060828, 0x3F0A0650, 0x3F0DF98A, 0x3F11E20E]
def tabLG1 : List Nat :=
  [0x3F15C01A, 0x3F1993E4, 0x3F1D5DA0, 0x3F211D84, 0x3F24D3C3, 0x3F28808D, 0x3F2C2410, 0x3F2FBE7F,
   0x3F335004, 0x3F36D8CA, 0x3F3A58FE, 0x3F3DD0C9, 0x3F41404E, 0x3F44A7BB, 0x3F480731, 0x3F4B5ED6,
   0x3F4EAECF, 0x3F51F740, 0x3F553847, 0x3F58720A, 0x3F5BA4A5, 0x3F5ED038, 0x3F61F4E5, 0x3F6512C6,
   0x3F6829FA, 0x3F6B3AA0, 0x3F6E44CF, 0x3F7148A2, 0x3F744636, 0x3F773DA2, 0x3F7A2F03, 0x3F7D1A71]
/-- LG[j] = −log2(LR[j]), LR[j] as stored (R62). -/
def tabLG (j : Nat) : Nat := (tabLG0 ++ tabLG1).getD j 0

def tabRC0 : List Nat :=
  [0x3F7E03F8, 0x3F7A232D, 0x3F76603E, 0x3F72B9D6, 0x3F6F2EB7, 0x3F6BBDB3, 0x3F6865AC, 0x3F652598,
   0x3F61FC78, 0x3F5EE95C, 0x3F5BEB62, 0x3F5901B2, 0x3F562B81, 0x3F53680D, 0x3F50B6A0, 0x3F4E168A,
   0x3F4B8728, 0x3F4907DA, 0x3F46980C, 0x3F443730, 0x3F41E4BC, 0x3F3FA030, 0x3F3D6910, 0x3F3B3EE7,
   0x3F392144, 0x3F370FBB, 0x3F3509E7, 0x3F330F63, 0x3F311FD4, 0x3F2F3ADE, 0x3F2D602B, 0x3F2B8F6A]
def tabRC1 : List Nat :=
  [0x3F29C84A, 0x3F280A81, 0x3F2655C4, 0x3F24A9CF, 0x3F23065E, 0x3F216B31, 0x3F1FD80A, 0x3F1E4CAD,
   0x3F1CC8E1, 0x3F1B4C70, 0x3F19D723, 0x3F1868C8, 0x3F17012E, 0x3F15A025, 0x3F144581, 0x3F12F114,
   0x3F11A2B4, 0x3F105A38, 0x3F0F177A, 0x3F0DDA52, 0x3F0CA29C, 0x3F0B7034, 0x3F0A42F8, 0x3F091AC7,
   0x3F07F781, 0x3F06D905, 0x3F05BF37, 0x3F04A9FA, 0x3F039930, 0x3F028CC0, 0x3F01848E, 0x3F008081]
/-- RC[j] = 1/(1 + (j + 1/2)/64) (R63). -/
def tabRC (j : Nat) : Nat := (tabRC0 ++ tabRC1).getD j 0

def tabRS0 : List Nat :=
  [0x3F7E05EC, 0x3F7A33F9, 0x3F768CDC, 0x3F730D8A, 0x3F6FB345, 0x3F6C7B90, 0x3F69642A, 0x3F666B02,
   0x3F638E39, 0x3F60CC16, 0x3F5E2305, 0x3F5B9193, 0x3F59166B, 0x3F56B051, 0x3F545E22, 0x3F521ED0,
   0x3F4FF162, 0x3F4DD4ED, 0x3F4BC89B, 0x3F49CBA2, 0x3F47DD45, 0x3F45FCD6, 0x3F4429AF, 0x3F426337,
   0x3F40A8DE, 0x3F3EFA1C, 0x3F3D5671, 0x3F3BBD67, 0x3F3A2E8C, 0x3F38A975, 0x3F372DBF, 0x3F35BB09]
def tabRS1 : List Nat :=
  [0x3F3450FC, 0x3F32EF41, 0x3F319589, 0x3F304387, 0x3F2EF8F2, 0x3F2DB587, 0x3F2C7904, 0x3F2B432A,
   0x3F2A13C0, 0x3F28EA8C, 0x3F27C759, 0x3F26A9F4, 0x3F25922C, 0x3F247FD3, 0x3F2372BD, 0x3F226ABE,
   0x3F2167AF, 0x3F206968, 0x3F1F6FC4, 0x3F1E7AA0, 0x3F1D89D9, 0x3F1C9D4E, 0x3F1BB4E1, 0x3F1AD073,
   0x3F19EFE6, 0x3F191320, 0x3F183A05, 0x3F17647C, 0x3F16926C, 0x3F15C3BC, 0x3F14F857, 0x3F143026]
def tabRS2 : List Nat :=
  [0x3F136B13, 0x3F12A90B, 0x3F11E9F9, 0x3F112DCA, 0x3F10746D, 0x3F0FBDCE, 0x3F0F09DD, 0x3F0E5889,
   0x3F0DA9C2, 0x3F0CFD79, 0x3F0C539F, 0x3F0BAC25, 0x3F0B06FD, 0x3F0A641A, 0x3F09C36D, 0x3F0924EC,
   0x3F088889, 0x3F07EE37, 0x3F0755ED, 0x3F06BF9E, 0x3F062B40, 0x3F0598C7, 0x3F05082A, 0x3F04795F,
   0x3F03EC5C, 0x3F036117, 0x3F02D788, 0x3F024FA6, 0x3F01C967, 0x3F0144C4, 0x3F00C1B4, 0x3F004030]
/-- RS[j] = 1/sqrt(1 + (j + 1/2)/32) (R64). -/
def tabRS (j : Nat) : Nat := (tabRS0 ++ tabRS1 ++ tabRS2).getD j 0


/-- The constants of R60. -/
def cC1 : Nat := 0x3F317218
def cC2 : Nat := 0x3E75FDF0
def cC3 : Nat := 0x3D635847
def cK1 : Nat := 0x3FB8AA3B
def cK2 : Nat := 0xBF38AA3B
def cK3 : Nat := 0x3EF6384F
def cK4 : Nat := 0xBEB8AA3B

/-- The value of an FP32 code. -/
def v32 (c : Nat) : FV := FP32.decode c

/-- FMA32 on exact values, delivering the rounded value (R42). -/
def fma32 (a b c : FV) : FV := v32 (arith FP32 false (FV.fma a b c).1).1
/-- RoundTA to FP32 of an exact value. -/
def rnd32 (a : FV) : FV := v32 (arith FP32 false a).1
def mulV (a b : FV) : FV := (FV.mul a b).1
def addV (a b : FV) : FV := (FV.add a b).1

/-- x * 2^k exactly. -/
def FV.scale (x : FV) (k : Int) : FV :=
  match x with
  | .fin s n d => .fin s (n * pow2Num k) (d * pow2Den k)
  | v => v

/-- EXP2 of a finite value num/den of sign neg (R61). -/
def exp2Fin (neg : Bool) (num den : Nat) : Nat × Flags :=
  let x : Int := if neg then -(num : Int) else num
  if 128 * (den : Int) ≤ x then (FP32.infCode false, fOf ||| fNx)
  else if x ≤ -151 * (den : Int) then (0, fUf ||| fNx)
  else
    let n := x.fdiv den
    let f := (x - n * den).toNat
    let j := 64 * f / den
    let g : FV := .fin false (64 * f - j * den) (64 * den)
    let t := fma32 (v32 cC3) g (v32 cC2)
    let t := fma32 t g (v32 cC1)
    let p := rnd32 (mulV t g)
    let y := fma32 (v32 (tabT j)) p (v32 (tabT j))
    arith FP32 false (y.scale n)

/-- EXP2 (R61). -/
def exp2 (x : Nat) : Nat × Flags :=
  match v32 x with
  | .nan => (FP32.nan, 0)
  | .inf s => (if s then 0 else FP32.infCode false, 0)
  | .fin s n d => exp2Fin s n d

/-- A positive finite value as m * 2^e with 1 ≤ m < 2. -/
def splitPow (num den : Nat) : FV × Int :=
  let e := floorLog2 num den
  ((FV.fin false num den).scale (-e), e)

/-- floor(k * (m − 1)) of a value m ≥ 1. -/
def stepOf (k : Nat) : FV → Nat
  | .fin _ n d => k * (n - d) / d
  | _ => 0

/-- LOG2 (R62). -/
def log2 (x : Nat) : Nat × Flags :=
  match v32 x with
  | .nan => (FP32.nan, 0)
  | .inf s => if s then (FP32.nan, fNv) else (FP32.infCode false, 0)
  | .fin s n d =>
    if n = 0 then (FP32.infCode true, fDz)
    else if s then (FP32.nan, fNv)
    else
      let (m, e) := splitPow n d
      let j := stepOf 64 m
      let u := fma32 m (v32 (tabLR j)) (.fin true 1 1)
      let t := fma32 (v32 cK4) u (v32 cK3)
      let t := fma32 t u (v32 cK2)
      let t := fma32 t u (v32 cK1)
      let p := rnd32 (mulV t u)
      let y := rnd32 (addV (v32 (tabLG j)) p)
      arith FP32 false (addV (FV.ofInt e) y)

/-- Whether a value is exactly 1. -/
def FV.isOne : FV → Bool
  | .fin s n d => !s && n == d
  | _ => false

/-- RCP (R63). -/
def rcp (x : Nat) : Nat × Flags :=
  match v32 x with
  | .nan => (FP32.nan, 0)
  | .inf s => (FP32.sign s, 0)
  | .fin s n d =>
    if n = 0 then (FP32.infCode s, fDz)
    else
      let (m, e) := splitPow n d
      if m.isOne then arith FP32 false ((FV.fin s 1 1).scale (-e))
      else
        let y := v32 (tabRC (stepOf 64 m))
        let y := fma32 y (fma32 m.neg y (.fin false 1 1)) y
        let y := fma32 y (fma32 m.neg y (.fin false 1 1)) y
        let r := y.scale (-e)
        arith FP32 false (if s then r.neg else r)

/-- RSQ (R64). -/
def rsq (x : Nat) : Nat × Flags :=
  match v32 x with
  | .nan => (FP32.nan, 0)
  | .inf s => if s then (FP32.nan, fNv) else (0, 0)
  | .fin s n d =>
    if n = 0 then (FP32.infCode s, fDz)
    else if s then (FP32.nan, fNv)
    else
      let (m, e) := splitPow n d
      let odd := e % 2 != 0
      let m := if odd then m.scale 1 else m
      let e := if odd then e - 1 else e
      if m.isOne then arith FP32 false ((FV.fin false 1 1).scale (-(e / 2)))
      else
        let y := v32 (tabRS (stepOf 32 m))
        let h := m.scale (-1)
        let it := fun (y : FV) =>
          let t := rnd32 (mulV y y)
          let d := fma32 h.neg t (.fin false 1 2)
          fma32 y d y
        let y := it (it y)
        arith FP32 false (y.scale (-(e / 2)))

/-- The function of R118 applied to a lane of a floating format: the FP32 algorithm, then one rounding to the lane
format, the flags of both (R60). -/
def transLane (f : FFmt) (op : Nat → Nat × Flags) (x : Nat) : Nat × Flags :=
  if f.width = 32 then op x
  else
    let w := (arith FP32 false (f.decode x)).1
    let r := op w
    let q := arith f false (v32 r.1)
    (q.1, r.2 ||| q.2)

end Sys2Proof.Machine
end

