-- ==== Sys2Proof/Machine/Flags.lean ====
section
/-! DEFINITION. Flags and conditions: the conditions of the compares, the fpstat flags a row of lanes raises, FP32 results in scalars (R26, R44, R51, R95, R100, R101). -/

namespace Sys2Proof.Machine

/-- The conditions of CMP and CMPI on 64-bit values (R26). UN and ORD are refused at decode. -/
def condInt (c : Cond) (a b : Word) : Bool :=
  match c with
  | .eq => a == b
  | .ne => a != b
  | .lt => a.slt b
  | .ge => !a.slt b
  | .le => !b.slt a
  | .gt => b.slt a
  | .ltn => a.ult b
  | .gen => !a.ult b
  | .len => !b.ult a
  | .gtn => b.ult a
  | .bits => a &&& b != 0
  | .nbits => a &&& b == 0
  | .un | .ord => false

/-- The conditions of FCMP on FP32 values (R26, R44): every ordered condition is false with a NaN, NE is true. -/
def condFloat (c : Cond) (x y : FV) : Bool :=
  let nan := x.isNan || y.isNan
  match c with
  | .eq => FV.eqv x y
  | .ne => nan || !FV.eqv x y
  | .lt => FV.lt x y
  | .ge => !nan && !FV.lt x y
  | .le => !nan && !FV.lt y x
  | .gt => FV.lt y x
  | .un => nan
  | .ord => !nan
  | .ltn | .gen | .len | .gtn | .bits | .nbits => false

/-- The low 32 bits of a scalar as an FP32 code (R100). -/
def lo32 (w : Word) : Nat := w.toNat % 2 ^ 32

/-- A row made lane by lane from one or two rows, with the flags of all lanes OR-ed (R51, R103). -/
def mapRow (w : Nat) (f : Nat → Nat × Flags) (a : Row) : Row × Flags :=
  let r := (lanes a w).map f
  (packRow w (r.map (·.1)), orFlags r)
def zipRow (w : Nat) (f : Nat → Nat → Nat × Flags) (a b : Row) : Row × Flags :=
  let r := ((lanes a w).zip (lanes b w)).map fun e => f e.1 e.2
  (packRow w (r.map (·.1)), orFlags r)
def zip3Row (w : Nat) (f : Nat → Nat → Nat → Nat × Flags) (a b c : Row) : Row × Flags :=
  let r := ((lanes a w).zip ((lanes b w).zip (lanes c w))).map fun e => f e.1 e.2.1 e.2.2
  (packRow w (r.map (·.1)), orFlags r)

/-- A value that raises no flag. -/
def noFlags (v : Nat) : Nat × Flags := (v, 0)

/-- FCVTI (R101): FP32 to I64 or N64. -/
def fcvtiVal (n64 : Bool) (a : Nat) : Nat × Flags :=
  if n64 then toInt 0 (2 ^ 64 - 1) 64 (FP32.decode a) else toInt (-(2 ^ 63)) (2 ^ 63 - 1) 64 (FP32.decode a)

/-- ICVTF (R101): I64 or N64 to FP32. -/
def icvtfVal (n64 : Bool) (a : Word) : Nat × Flags :=
  satTo FP32 false (FV.ofInt (if n64 then (a.toNat : Int) else a.toInt))

end Sys2Proof.Machine
end

