-- ==== Sys2Proof/Machine/LoadStoreOps.lean ====
section
/-! DEFINITION. The LSU slot: local and global transfers, atomics, fences, publication, claims (R129 to R147). -/

namespace Sys2Proof.Machine

/-- imm8 as a signed count of a unit (R129). -/
def immOff (imm : BitVec 8) (unit : Nat) : Word := BitVec.ofInt 64 (imm.toInt * (unit : Int))
/-- The offset of the sized forms: imm[5:0] signed, in units of the size (R29). -/
def sizeOff (off : BitVec 6) (z : Nat) : Word := BitVec.ofInt 64 (off.toInt * (z : Int))
/-- The size code's bytes (R135). -/
def sizeOf (sz : BitVec 2) : Nat := 2 ^ sz.toNat

/-- The write-back of a post-increment, one step later (R129). -/
def Env.postInc (e : Env) (s : State) (base : BitVec 6) (imm : BitVec 8) : State := e.flyS s 1 base (e.S base + immOff imm 256)

/-- A trap of an access (R343): its address and what the access was (R345). -/
def Env.accTrap (e : Env) (code : TrapCode) (addr : Word) (wr at_ : Bool) : Trap :=
  { e.trap code addr with isWrite := wr, isAtomic := at_, gate := code == .window }

/-- Whether a local access may pass stage 3: a failing check does not wait. -/
def localWait (e : Env) (s : State) (a : Word) (align len : Nat) (store : Bool) : Option State :=
  if (s.localCheck e.g a align len).isSome then none
  else if (if store then (s.core e.k).storeBlocked a.toNat len else (s.core e.k).loadBlocked a.toNat len) then some s
  else none

/-- A store to the scratchpad (R135): logged in a segment and signed into its result (R353, R356). -/
def Env.localStore (e : Env) (s : State) (a : Word) (n v : Nat) : Except Trap State :=
  match s.logRam e.g a.toNat n with
  | none => .error (e.trap .segOverflow)
  | some s =>
    let s := if (s.ctx e.g).seg.isNone then s else s.updCtx e.g fun c => c.signRes (natBytes 8 a.toNat ++ natBytes n v)
    .ok (s.updCore e.k fun c => { c with ram := Mem.writeN c.ram a.toNat n v })

/-- A row load from the scratchpad (R135): l4 and l5 move with it. -/
def localRowLoad (d base : BitVec 6) (off : BitVec 8) (post : Bool) : SlotOp :=
  let addr (e : Env) : Word := if post then e.S base else e.S base + immOff off 256
  { reads := fun _ => [sKey base.toNat]
    writes := fun e => e.rowKeys [d] ++ (if post then [sKey base.toNat] else [])
    wait := fun e s => localWait e s (addr e) 256 256 false
    issue := fun e s =>
      match e.pre.localCheck e.g (addr e) 256 256 with
      | some t => .error (e.accTrap t (addr e) false false)
      | none =>
        let s := e.flyRow s 6 false d (Mem.readRow e.core.ram (addr e).toNat) 0
        .ok (if post then e.postInc s base off else s) }
def ldlOp (d base : BitVec 6) (off : BitVec 8) := localRowLoad d base off false
def ldlpOp (d base : BitVec 6) (off : BitVec 8) := localRowLoad d base off true

/-- A row store to the scratchpad (R135). -/
def localRowStore (v base : BitVec 6) (off : BitVec 8) (post : Bool) : SlotOp :=
  let addr (e : Env) : Word := if post then e.S base else e.S base + immOff off 256
  { reads := fun e => sKey base.toNat :: e.rowKeys [v]
    writes := fun _ => if post then [sKey base.toNat] else []
    queues := queueCodes [v]
    wait := fun e s => localWait e s (addr e) 256 256 true
    issue := fun e s =>
      match e.src 0 v with
      | .error t => .error t
      | .ok r =>
        match e.pre.localCheck e.g (addr e) 256 256 with
        | some t => .error (e.accTrap t (addr e) true false)
        | none => (e.localStore s (addr e) 256 r.toNat).map fun s => if post then e.postInc s base off else s }
def stlOp (v base : BitVec 6) (off : BitVec 8) := localRowStore v base off false
def stlpOp (v base : BitVec 6) (off : BitVec 8) := localRowStore v base off true

/-- LDLS and STLS (R135). -/
def ldlsOp (d base : BitVec 6) (sz : BitVec 2) (off : BitVec 6) : SlotOp :=
  let z := sizeOf sz
  let addr (e : Env) : Word := e.S base + sizeOff off z
  { reads := fun _ => [sKey base.toNat], writes := fun _ => [sKey d.toNat]
    wait := fun e s => localWait e s (addr e) z z false
    issue := fun e s =>
      match e.pre.localCheck e.g (addr e) z z with
      | some t => .error (e.accTrap t (addr e) false false)
      | none => .ok (e.flyS s 6 d (BitVec.ofNat 64 (Mem.readN e.core.ram (addr e).toNat z))) }
def stlsOp (v base : BitVec 6) (sz : BitVec 2) (off : BitVec 6) : SlotOp :=
  let z := sizeOf sz
  let addr (e : Env) : Word := e.S base + sizeOff off z
  { reads := fun _ => [sKey base.toNat, sKey v.toNat]
    wait := fun e s => localWait e s (addr e) z z true
    issue := fun e s =>
      match e.pre.localCheck e.g (addr e) z z with
      | some t => .error (e.accTrap t (addr e) true false)
      | none => e.localStore s (addr e) z (e.S v).toNat }

/-- What an atomic function makes of a word of w bits (R140). -/
def atomVal (f : AtomFn) (w old v new : Nat) : Nat :=
  match f with
  | .add => (old + v) % 2 ^ w
  | .min => if signExt v w < signExt old w then v else old
  | .max => if signExt old w < signExt v w then v else old
  | .minn => min old v
  | .maxn => max old v
  | .and => old &&& v
  | .or => old ||| v
  | .xor => old ^^^ v
  | .xchg => v
  | .cas => if old = v then new else old
  | .fadd => (fAdd FP32 old v).1

/-- Scalars an atomic reads: cas takes its new value from s(data+1) (R29). -/
def atomReads (f : AtomFn) (data base : BitVec 6) : List Nat :=
  [sKey base.toNat, sKey data.toNat] ++ (if f = .cas then [sKey (data.toNat + 1)] else [])

/-- The operands v and new of an atomic of n bytes (R140). -/
def Env.atomOperands (e : Env) (f : AtomFn) (data : BitVec 6) (n : Nat) : Nat × Nat :=
  ((e.S data).toNat % 2 ^ (8 * n), if f = .cas then (e.S (data + 1)).toNat % 2 ^ (8 * n) else 0)

/-- ATOML (R141). -/
def atomlOp (f : AtomFn) (w64 : Bool) (data base : BitVec 6) : SlotOp :=
  let n := if w64 then 8 else 4
  { reads := fun _ => atomReads f data base, writes := fun _ => [sKey data.toNat]
    wait := fun e s => localWait e s (e.S base) n n true
    issue := fun e s =>
      match e.pre.localCheck e.g (e.S base) n n with
      | some t => .error (e.accTrap t (e.S base) true true)
      | none =>
        let old := Mem.readN e.core.ram (e.S base).toNat n
        let vn := e.atomOperands f data n
        (e.localStore s (e.S base) n (atomVal f (8 * n) old vn.1 vn.2)).map fun s => e.flyS s 6 data (BitVec.ofNat 64 old) }

/-- The two blocks of a row encoding at a local address: their bytes and total length (R146, R147). -/
def rowEncoding (m : Tab Byte) (a : Nat) : Nat × Nat :=
  let l0 := blockLen (Mem.read m a) (Mem.readBytes m (a + 1) 16)
  (l0, blockLen (Mem.read m (a + l0)) (Mem.readBytes m (a + l0 + 1) 16))

/-- The checks of LDLX (R130, R147). -/
def State.expandCheck (s : State) (g : Nat) (a : Word) : Option TrapCode :=
  let m := (s.core (g / 4)).ram
  match s.localCheck g a 8 1 with
  | some t => some t
  | none =>
    if !headerOk (Mem.read m a.toNat) then some .illegalOperand
    else
      let l := rowEncoding m a.toNat
      match s.localCheck g a 8 (l.1 + 1) with
      | some t => some t
      | none => if !headerOk (Mem.read m (a.toNat + l.1)) then some .illegalOperand else s.localCheck g a 8 (l.1 + l.2)

/-- LDLX (R147). -/
def ldlxOp (d base : BitVec 6) (off : BitVec 8) : SlotOp :=
  let addr (e : Env) : Word := e.S base + immOff off 256
  { reads := fun _ => [sKey base.toNat], writes := fun e => e.rowKeys [d]
    wait := fun e s =>
      if (s.localCheck e.g (addr e) 8 1).isSome then none
      else if (s.core e.k).loadBlocked (addr e).toNat 1 then some s
      else
        let m := (s.core e.k).ram
        let a := (addr e).toNat
        let first := (rowEncoding m a).1
        -- the second block's header, as far as the first gives its place (R251)
        if !headerOk (Mem.read m a) ∨ (s.localCheck e.g (addr e) 8 (first + 1)).isSome then none
        else if (s.core e.k).loadBlocked a (first + 1) then some s
        else if (s.expandCheck e.g (addr e)).isSome then none
        else
          let l := rowEncoding m a
          if (s.core e.k).loadBlocked a (l.1 + l.2) then some s else none
    issue := fun e s =>
      match e.pre.expandCheck e.g (addr e) with
      | some t => .error (e.accTrap t (addr e) false false)
      | none =>
        let m := e.core.ram
        let l := rowEncoding m (addr e).toNat
        let bs := blockDecode (Mem.readBytes m (addr e).toNat l.1) ++ blockDecode (Mem.readBytes m ((addr e).toNat + l.1) l.2)
        .ok (e.flyRow s 6 false d (bytesRow bs) 0) }

/-- The translation a core's TLBs hold for a page: none when they miss (R132). -/
def State.tlbAt (s : State) (k : Nat) (va : Word) : Option (Option PageMap) := Tab.get none (s.core k).tlb (vpageOf va)

/-- The translation an issuing access goes by: the TLBs', or what the walker finds where a mapping changed while its bundle froze. -/
def Env.mapAt (e : Env) (va : Word) : Option PageMap := (e.pre.tlbAt e.k va).getD (e.pre.mapOf e.p va)

/-- A global address checked under the TLB's translation (R131). -/
def Env.globalAddr (e : Env) (va : Word) (align : Nat) (acc : Acc) : Except TrapCode Nat :=
  e.pre.globalCheck e.p va align acc (e.mapAt va)

/-- Whether the context waits for a grant of words it would touch (R333). -/
def State.grantPending (s : State) (g a n : Nat) : Bool :=
  (List.range n).any fun i => s.reqs.any fun r => r.g == g && r.kind == .own && r.line == (a + i) / 128 && inMask r.words (a + i)

/-- Stage 3 of a global access (R132, R133, R333): a TLB miss asks the walker; the limit of 32; a grant under way. `takes`
tells that the access counts against the limit. -/
def globalWait (e : Env) (s : State) (va : Word) (align n : Nat) (acc : Acc) (takes : Bool) : Option State :=
  if !canonical va || va.toNat % align != 0 then none
  else
    match s.tlbAt e.k va with
    | none => some (s.updCore e.k fun c => { c with walks := if c.walks.contains (vpageOf va) then c.walks else c.walks ++ [vpageOf va] })
    | some m =>
      match s.globalCheck e.p va align acc m with
      | .error _ => none
      | .ok pa => if (takes && decide (32 ≤ s.outstanding e.g)) || s.grantPending e.g pa n then some s else none

/-- The policy of an access at issue (R139). -/
def Env.policy (e : Env) (va : Word) (cp : Pol) : Pol :=
  match e.mapAt va with
  | some m => e.pre.effPol e.p m cp
  | none => cp

/-- R323: words of the range that the core holds unpublished are published before a WI, WT or OWN access or an atomic. -/
def State.publishWords (s : State) (k a n : Nat) : State :=
  s.publish k fun b _ => decide (a / 4 ≤ b / 4) && decide (b / 4 ≤ (a + n - 1) / 4)

/-- Whether a read of the core of a byte's word is on its way to the home: a copy at hand may be older than what it will return. -/
def State.readPending (s : State) (k a : Nat) : Bool :=
  s.reqs.any fun r => r.g / 4 == k && (r.kind == .read || r.kind == .wiRead) && r.line == a / 128 && inMask r.words a

/-- A byte that the core has at hand for a load (R323, R328): unpublished, registered by a context of the core, or in the
copy its policy may read. A word with a change or a read of this core still under way is asked of the home, behind it, so that no
context reads an older value after a newer one (R322, R323). -/
def State.localByte (s : State) (k a : Nat) (pol : Pol) : Option Byte :=
  match Tab.get none (s.core k).unpub a with
  | some u => some u.val
  | none =>
    if s.writePending k a then none
    else
      match [0, 1, 2, 3].findSome? fun c => Tab.get none (s.ctx (4 * k + c)).owned a with
      | some b => some b.val
      | none =>
        if s.readPending k a then none else
        let copy := match pol with
          | .si => Tab.get none (s.core k).siLines (a / 128)
          | .wi => Tab.get none (s.core k).wiLines (a / 128)
          | .wt | .own => none
        copy.bind fun c => if inMask c.notHeld a then none else some (BitVec.ofNat 8 (field c.data.toNat (8 * (a % 128)) 8))

/-- What a load of n bytes has at hand, by offset: whole 16-byte pieces, so that a piece is of one moment (R321); of a piece that is not
at hand only what the core holds unpublished, which every load returns (R323). -/
def State.localBytes (s : State) (k a n : Nat) (pol : Pol) : List (Nat × Byte) :=
  (List.range n).filterMap fun i =>
    let whole := (List.range n).all fun j => (a + j) / 16 != (a + i) / 16 || (s.localByte k (a + j) pol).isSome
    (if whole then s.localByte k (a + i) pol else (Tab.get none (s.core k).unpub (a + i)).map fun u => u.val).map fun b => (i, b)

/-- The key of a destination that becomes busy; s0 never does (R69, R136). -/
def Ctx.setBusy (c : Ctx) (key id : Nat) : Ctx := if key = sKey 0 then c else { c with busy := Tab.set 0 c.busy key (id + 1) }

/-- An outstanding load added, its destination busy (R136). -/
def State.addLoad (s : State) (l : GLoad) : State :=
  ({ s with loads := s.loads ++ [{ l with id := s.nextReq, inSeg := (s.ctx l.g).seg.isSome }], nextReq := s.nextReq + 1 }).updCtx l.g fun c => c.setBusy l.dest s.nextReq

/-- The lines of a byte range. -/
def linesOf (a n : Nat) : List Nat := (List.range ((a + n - 1) / 128 - a / 128 + 1)).map fun i => a / 128 + i

/-- The store buffer's byte at an address, the latest first (R353). -/
def Seg.bufByte (q : Seg) (a : Nat) : Option Byte :=
  q.stores.foldl (fun r st => if st.pa ≤ a ∧ a < st.pa + st.data.length then st.data[a - st.pa]? else r) none

/-- Whether the segment's buffer and load log are full (R353). -/
def Seg.full (q : Seg) : Bool := decide (256 ≤ q.stores.length + q.loads.length)

/-- The poisoned line a mark tells of. -/
def Mark.line : Mark → Option Nat
  | .poisoned l => some l
  | .aborted _ => none

/-- A global load at issue (R135, R139, R323): what is at hand is taken, the rest is asked of the homes. In a segment the
value's place in the load log is kept, and a rerun takes the logged value (R353). -/
def Env.globalLoad (e : Env) (s : State) (dest : Nat) (va : Word) (pa n : Nat) (pol : Pol) : Except Trap State :=
  match (s.ctx e.g).seg with
  | some q =>
    match q.replay with
    | v :: rest =>
      let s := s.updCtx e.g fun c => { c with seg := some { q with replay := rest } }
      .ok (s.addLoad { id := 0, g := e.g, dest := dest, va := va, pa := pa, size := n, known := addrBytes 0 v.data, asked := 0
                       poison := v.mark.bind Mark.line, abort := v.mark.any fun m => m.line.isNone })
    | [] =>
      if q.full then .error (e.trap .segOverflow)
      else
        let s := s.updCtx e.g fun c => { c with seg := some { q with loads := q.loads ++ [⟨[], none⟩] } }
        let s := if pol = .si then s else s.publishWords e.k pa n
        let mine := (List.range n).filterMap fun i => (q.bufByte (pa + i)).map fun b => (i, b)
        let known := mine ++ (s.localBytes e.k pa n pol).filter fun b => !(mine.any fun m => m.1 == b.1)
        .ok (ask s known (some q.loads.length))
  | none =>
    let s := if pol = .si then s else s.publishWords e.k pa n
    .ok (ask s (s.localBytes e.k pa n pol) none)
where
  /-- The load with what is known, and one request for each line that lacks a byte. -/
  ask (s : State) (known : List (Nat × Byte)) (logAt : Option Nat) : State :=
    let missing := (List.range n).filter fun i => !(known.any fun b => b.1 == i)
    let lines := (missing.map fun i => (pa + i) / 128).eraseDups
    let id := s.nextReq
    let s := s.addLoad { id := 0, g := e.g, dest := dest, va := va, pa := pa, size := n, known := known, asked := lines.length, logAt := logAt }
    lines.foldl (fun s line =>
      let kind := match pol with
        | .si | .wt => ReqKind.read
        | .wi => .wiRead
        | .own => .own
      s.send { id := 0, g := e.g, kind := kind, line := line, words := wordMask line (missing.map fun i => pa + i), load := some id
               keep := pol == .si }) s

/-- Local writes of registered bytes, under the tag the context's stores carry now (R333, R340). -/
def State.putOwned (s : State) (g : Nat) (bs : List (Nat × Byte)) (tag : Nat) : State :=
  s.updCtx g fun c => { c with owned := bs.foldl (fun t b => Tab.set none t b.1 (some ⟨b.2, tag⟩)) c.owned }

/-- A global store handed to the core (R139, R323, R333): SI words stay unpublished; WI and WT words go home at once; OWN
pieces are written where all of a piece is registered, else asked for whole with their data, so that no piece is torn (R321). -/
def State.coreStore (s : State) (g pa : Nat) (bs : List Byte) (pol : Pol) : State :=
  let k := g / 4
  let w := addrBytes pa bs
  match pol with
  | .si => s.updCore k fun c => { c with unpub := w.foldl (fun t b => Tab.set none t b.1 (some ⟨b.2, g, s.tagOf g⟩)) c.unpub }
  | .wt | .wi =>
    let s := s.publishWords k pa bs.length
    (linesOf pa bs.length).foldl (fun s line =>
      let d := w.filter fun b => b.1 / 128 == line
      s.send { id := 0, g := g, kind := .write, line := line, words := wordMask line (d.map (·.1)), data := d, wi := pol == .wi }) s
  | .own =>
    let s := s.publishWords k pa bs.length
    let held := w.filter fun b => (Tab.get none (s.ctx g).owned b.1).isSome && !s.writePending k b.1
    let here := held.filter fun b => w.all fun d => d.1 / 16 != b.1 / 16 || held.contains d
    let away := w.filter fun b => !here.contains b
    let s := s.putOwned g here (s.tagOf g)
    ((away.map fun b => b.1 / 128).eraseDups).foldl (fun s line =>
      let d := away.filter fun b => b.1 / 128 == line
      s.send { id := 0, g := g, kind := .own, line := line, words := wordMask line (d.map (·.1)), data := d }) s

/-- A global store at issue: buffered and signed in a segment (R353, R356), else handed to the core. -/
def Env.globalStore (e : Env) (s : State) (pa n v : Nat) (pol : Pol) : Except Trap State :=
  match (s.ctx e.g).seg with
  | some q =>
    if q.full then .error (e.trap .segOverflow)
    else
      let s := s.updCtx e.g fun c => { c with seg := some { q with stores := q.stores ++ [⟨pa, pol, natBytes n v⟩] } }
      .ok (s.updCtx e.g fun c => c.signRes (natBytes 8 pa ++ natBytes n v))
  | none => .ok (s.coreStore e.g pa (natBytes n v) pol)

/-- A global row or scalar load (R135). -/
def globalLoadOp (key : Env → Nat) (base : BitVec 6) (addr : Env → Word) (n : Nat) (cp : Pol) (post : Option (BitVec 8)) : SlotOp :=
  { reads := fun _ => [sKey base.toNat]
    writes := fun e => key e :: (if post.isSome then [sKey base.toNat] else [])
    wait := fun e s => globalWait e s (addr e) n n .read true
    issue := fun e s =>
      match e.globalAddr (addr e) n .read with
      | .error t => .error (e.accTrap t (addr e) false false)
      | .ok pa =>
        (e.globalLoad s (key e) (addr e) pa n (e.policy (addr e) cp)).map fun s =>
          match post with
          | some imm => e.postInc s base imm
          | none => s }
def ldgOp (d base : BitVec 6) (cp : Pol) (imm : BitVec 8) :=
  globalLoadOp (fun e => rowKey (e.dst d)) base (fun e => e.S base + immOff imm 256) 256 cp none
def ldgpOp (d base : BitVec 6) (cp : Pol) (imm : BitVec 8) :=
  globalLoadOp (fun e => rowKey (e.dst d)) base (fun e => e.S base) 256 cp (some imm)
def ldgsOp (d base : BitVec 6) (cp : Pol) (sz : BitVec 2) (off : BitVec 6) :=
  globalLoadOp (fun _ => sKey d.toNat) base (fun e => e.S base + sizeOff off (sizeOf sz)) (sizeOf sz) cp none

/-- A global row or scalar store (R135). -/
def globalStoreOp (reads : Env → List Nat) (queues : List Nat) (val : Env → Except Trap Nat) (base : BitVec 6) (addr : Env → Word)
    (n : Nat) (cp : Pol) (post : Option (BitVec 8)) : SlotOp :=
  { reads := fun e => sKey base.toNat :: reads e, writes := fun _ => if post.isSome then [sKey base.toNat] else []
    queues := queues
    wait := fun e s => globalWait e s (addr e) n n .write (cp == .own)
    issue := fun e s =>
      match val e with
      | .error t => .error t
      | .ok v =>
        match e.globalAddr (addr e) n .write with
        | .error t => .error (e.accTrap t (addr e) true false)
        | .ok pa =>
          (e.globalStore s pa n v (e.policy (addr e) cp)).map fun s =>
            match post with
            | some imm => e.postInc s base imm
            | none => s }
def stgOp (v base : BitVec 6) (cp : Pol) (imm : BitVec 8) :=
  globalStoreOp (fun e => e.rowKeys [v]) (queueCodes [v]) (fun e => (e.src 0 v).map BitVec.toNat) base
    (fun e => e.S base + immOff imm 256) 256 cp none
def stgpOp (v base : BitVec 6) (cp : Pol) (imm : BitVec 8) :=
  globalStoreOp (fun e => e.rowKeys [v]) (queueCodes [v]) (fun e => (e.src 0 v).map BitVec.toNat) base
    (fun e => e.S base) 256 cp (some imm)
def stgsOp (v base : BitVec 6) (cp : Pol) (sz : BitVec 2) (off : BitVec 6) :=
  globalStoreOp (fun _ => [sKey v.toNat]) [] (fun e => .ok (e.S v).toNat) base
    (fun e => e.S base + sizeOff off (sizeOf sz)) (sizeOf sz) cp none

/-- ATOM (R140). In a segment it is illegal (R352). -/
def atomOp (f : AtomFn) (w64 : Bool) (cp : Pol) (data base : BitVec 6) : SlotOp :=
  let n := if w64 then 8 else 4
  { reads := fun _ => atomReads f data base, writes := fun _ => [sKey data.toNat]
    wait := fun e s => if e.regs.inSeg then none else globalWait e s (e.S base) n n .atomic true
    issue := fun e s =>
      if e.regs.inSeg then .error (e.trap .illegalOperand)
      else
        match e.globalAddr (e.S base) n .atomic with
        | .error t => .error (e.accTrap t (e.S base) true true)
        | .ok pa =>
          let vn := e.atomOperands f data n
          let s := s.publishWords e.k pa n
          let pol := e.policy (e.S base) cp
          let old := (List.range n).filterMap fun i =>
            if s.writePending e.k (pa + i) then none else (Tab.get none (s.ctx e.g).owned (pa + i)).map fun o => o.val
          let l : GLoad := { id := 0, g := e.g, dest := sKey data.toNat, va := e.S base, pa := pa, size := n, known := [], asked := 1 }
          if pol = .own ∧ old.length = n then
            let new := natBytes n (atomVal f (8 * n) (bytesNat old) vn.1 vn.2)
            let s := s.putOwned e.g (addrBytes pa new) (s.tagOf e.g)
            .ok (s.addLoad { l with known := addrBytes 0 old, asked := 0 })
          else
            let id := s.nextReq
            let s := s.addLoad l
            .ok (s.send { id := 0, g := e.g, kind := if pol = .own then .own else .atom, line := pa / 128
                          words := wordMask (pa / 128) (List.range n |>.map fun i => pa + i), load := some id, fn := f, w64 := w64
                          off := pa % 128, v := BitVec.ofNat 64 vn.1, new := BitVec.ofNat 64 vn.2, atomic := true }) }

/-- FENCE (R142): the release, then the acquire; acqrel is PHASE, a latency fence at every scope (R84, R91). A release in a segment is
illegal (R352). -/
def fenceOp (rel acq : Bool) (scope : BitVec 3) : SlotOp :=
  { fenceIf := rel && acq
    wait := fun e s =>
      if rel && e.regs.inSeg then none
      else
        match (if rel then s.releaseWait e.k scope.toNat else none) with
        | some s => some s
        | none => if acq then acquireWait s e.g scope.toNat else none
    issue := fun e s =>
      if rel && e.regs.inSeg then .error (e.trap .illegalOperand)
      else .ok (if acq then s.acquire e.k scope.toNat else s) }
def fenceAcqOp := fenceOp false true
def fenceRelOp := fenceOp true false
def fenceAcqrelOp := fenceOp true true

/-- The lines of a byte range of PUBL, INVL and PRFG as virtual line numbers: first and how many (R143). -/
def rangeLines (a len : Word) : Nat × Nat :=
  if len = 0 then (0, 0) else (a.toNat / 128, (a.toNat + len.toNat - 1) / 128 - a.toNat / 128 + 1)

/-- Whether a physical address lies in a page of the partition that maps a virtual line of the range; unmapped pages are
skipped (R143). -/
def State.inVirtRange (s : State) (p : Nat) (r : Nat × Nat) (pa : Nat) : Bool :=
  (s.part p).pages.any fun e =>
    match e.2 with
    | none => false
    | some m =>
      let base := pagePa m 0
      decide (base ≤ pa) && decide (pa < base + 65536) &&
      (let hi := if e.1 < 2 ^ 38 then 0 else 2 ^ 64 - 2 ^ 55
       let line := (hi + e.1 * 65536 + (pa - base)) / 128
       decide (r.1 ≤ line) && decide (line < r.1 + r.2))

/-- PUBL (R144). -/
def publOp (len base : BitVec 6) (imm : BitVec 8) : SlotOp :=
  let rg (e : Env) := rangeLines (e.S base + immOff imm 128) (e.S len)
  { reads := fun _ => [sKey base.toNat, sKey len.toNat]
    wait := fun e s =>
      if e.regs.inSeg || decide (2 ^ 40 < (e.S len).toNat) then none
      else
        let hit := fun a => s.inVirtRange e.p (rg e) a
        let c := s.core e.k
        if (c.unpub.all fun u => !hit u.1) && (s.reqs.all fun r => !(r.g / 4 == e.k && r.isWrite && hit (r.line * 128))) then none
        else some (s.publish e.k fun a _ => hit a)
    issue := fun e s =>
      if e.regs.inSeg || decide (2 ^ 40 < (e.S len).toNat) then .error (e.trap .illegalOperand) else .ok s }

/-- INVL (R144). -/
def invlOp (len base : BitVec 6) (imm : BitVec 8) : SlotOp :=
  { reads := fun _ => [sKey base.toNat, sKey len.toNat]
    issue := fun e s =>
      if 2 ^ 40 < (e.S len).toNat then .error (e.trap .illegalOperand)
      else
        let r := rangeLines (e.S base + immOff imm 128) (e.S len)
        .ok (s.updCore e.k fun c => { c with siLines := Tab.keep (fun line _ => !s.inVirtRange e.p r (line * 128)) c.siLines }) }

/-- PRFG (R144): the lines of the range it may read are asked for, as its policy fills them (R139). -/
def prfgOp (len base : BitVec 6) (cp : Pol) (imm : BitVec 8) : SlotOp :=
  { reads := fun _ => [sKey base.toNat, sKey len.toNat]
    issue := fun e s =>
      let r := rangeLines (e.S base + immOff imm 128) (if 2 ^ 20 < (e.S len).toNat then 2 ^ 20 else e.S len)
      .ok ((List.range r.2).foldl (fun s i =>
        let va := BitVec.ofNat 64 ((r.1 + i) * 128)
        match s.resolve e.p va 1 .read, s.mapOf e.p va with
        | .ok pa, some m =>
          let q : Req := { id := 0, g := e.g, kind := .read, line := pa / 128, words := 0 }
          match s.effPol e.p m cp with
          | .si => if (Tab.get none (s.core e.k).siLines (pa / 128)).isSome then s else s.send { q with keep := true }
          | .wi => if (Tab.get none (s.core e.k).wiLines (pa / 128)).isSome then s else s.send { q with kind := .wiRead }
          | .wt => s
          | .own => s.send { q with kind := .own, words := 0xFFFFFFFF }
        | _, _ => s) s) }

/-- Bits of a mask. -/
def maskBits (v : Word) (n : Nat) : List Nat := (List.range n).filter fun i => v.getLsbD i

/-- The checks of a claim at issue (R145, R352): a mask wider than its field; in a segment. -/
def claimBad (e : Env) (v : Word) (n : Nat) : Bool := e.regs.inSeg || decide (2 ^ n ≤ v.toNat)

/-- CLAIMB (R145). -/
def claimbOp (mask : BitVec 6) : SlotOp :=
  { reads := fun _ => [sKey mask.toNat]
    wait := fun e s =>
      let c := s.core e.k
      let v := e.S mask
      if claimBad e v 32 || (maskBits v 32).any fun b => decide (4 * c.split ≤ b) then none
      else if (maskBits v 32).all fun b =>
          !c.moving.getLsbD b && (match Tab.get none c.banks b with
            | none => true
            | some (l, _) => some l == (s.ctx e.g).launch)
      then none else some s
    issue := fun e s =>
      let v := e.S mask
      if claimBad e v 32 then .error (e.trap .illegalOperand)
      else if (maskBits v 32).any fun b => decide (4 * e.core.split ≤ b) then .error (e.trap .access)
      else
        match e.ctx.launch with
        | none => .ok s
        | some l => .ok (s.updCore e.k fun c =>
            { c with banks := (maskBits v 32).foldl (fun t b => Tab.set none t b (some (l, e.c))) c.banks }) }

/-- RELB (R145). -/
def relbOp (mask : BitVec 6) : SlotOp :=
  { reads := fun _ => [sKey mask.toNat]
    issue := fun e s =>
      let v := e.S mask
      if claimBad e v 32 then .error (e.trap .illegalOperand)
      else .ok (s.updCore e.k fun c =>
        { c with banks := Tab.keep (fun b o => !(v.getLsbD b && (match o with | some (l, _) => some l == e.ctx.launch | none => false))) c.banks }) }

/-- CLAIMT (R145). -/
def claimtOp (mask : BitVec 6) : SlotOp :=
  { reads := fun _ => [sKey mask.toNat]
    wait := fun e s =>
      let v := e.S mask
      if claimBad e v 12 then none
      else if (maskBits v 12).all fun t =>
          match Tab.get none (s.core e.k).tOwner t with
          | none => true
          | some c => c == e.c
      then none else some s
    issue := fun e s =>
      let v := e.S mask
      if claimBad e v 12 then .error (e.trap .illegalOperand)
      else .ok (s.updCore e.k fun c =>
        { c with tOwner := (maskBits v 12).foldl (fun t i => Tab.set none t i (some e.c)) c.tOwner }) }

/-- RELT (R145): waits until no array operation is in flight on a tile of the mask. -/
def reltOp (mask : BitVec 6) : SlotOp :=
  { reads := fun _ => [sKey mask.toNat]
    wait := fun e s =>
      let v := e.S mask
      if claimBad e v 12 then none
      else if (maskBits v 12).any fun t => (s.core e.k).halyard.any fun h => h.tiles.contains t then some s else none
    issue := fun e s =>
      let v := e.S mask
      if claimBad e v 12 then .error (e.trap .illegalOperand)
      else .ok (s.updCore e.k fun c =>
        { c with tOwner := Tab.keep (fun t o => !(v.getLsbD t && o == some e.c)) c.tOwner }) }

end Sys2Proof.Machine
end

