-- ==== Sys2Proof/Machine/VectorOps.lean ====
section
/-! DEFINITION. The vector slots: lane functions and the operations over them (R103 to R127). The slot, VA or VB, is that of the environment. -/

namespace Sys2Proof.Machine

/-- An integer lane under a format (R112). -/
def intLane (f : VFmt) (c : Nat) : Int := if f.isSigned then signExt c f.width else (c : Int)
/-- The bounds of an integer vector format (R113). -/
def laneMin (f : VFmt) : Int := if f.isSigned then -(2 ^ (f.width - 1)) else 0
def laneMax (f : VFmt) : Int := if f.isSigned then 2 ^ (f.width - 1) - 1 else 2 ^ f.width - 1

/-- Arithmetic of a lane: the floating form under a floating format, else the integer form, wrapped (R111, R112). -/
def arithLane (f : VFmt) (fl : FFmt → Nat → Nat → Nat × Flags) (it : Int → Int → Int) (a b : Nat) : Nat × Flags :=
  if f.isFloat then fl f.float a b else (wrap f.width (it (intLane f a) (intLane f b)), 0)
def arithLane3 (f : VFmt) (fl : FFmt → Nat → Nat → Nat → Nat × Flags) (it : Int → Int → Int → Int) (c a b : Nat) : Nat × Flags :=
  if f.isFloat then fl f.float a b c else (wrap f.width (it (intLane f c) (intLane f a) (intLane f b)), 0)

def addLane (f : VFmt) := arithLane f fAdd fun a b => a + b
def subLane (f : VFmt) := arithLane f fSub fun a b => a - b
def mulLane (f : VFmt) := arithLane f fMul fun a b => a * b
def fmaLane (f : VFmt) := arithLane3 f fFma fun c a b => c + a * b
def fmsLane (f : VFmt) := arithLane3 f fFms fun c a b => c - a * b
def abdLane (f : VFmt) := arithLane f fAbd fun a b => ((a - b).natAbs : Int)
def minLane (f : VFmt) := arithLane f (fun g a b => noFlags (fMinNum g a b)) fun a b => if b < a then b else a
def maxLane (f : VFmt) := arithLane f (fun g a b => noFlags (fMaxNum g a b)) fun a b => if a < b then b else a
def absLane (f : VFmt) (a : Nat) : Nat × Flags :=
  noFlags (if f.isFloat then fAbs f.float a else wrap f.width (intLane f a).natAbs)
def negLane (f : VFmt) (a : Nat) : Nat × Flags :=
  noFlags (if f.isFloat then fNeg f.float a else wrap f.width (-(intLane f a)))
/-- VADDS and VSUBS: the exact result clamped; no flag (R113). -/
def satLane (f : VFmt) (it : Int → Int → Int) (a b : Nat) : Nat × Flags :=
  noFlags (wrap f.width (clampI (laneMin f) (laneMax f) (it (intLane f a) (intLane f b))))
/-- Shifts by the count's low bits (R114). -/
def shiftLane (f : VFmt) (sh : Nat → Nat → Nat) (a b : Nat) : Nat × Flags := noFlags (sh a (b % f.width))
/-- Compares write all ones or zeros; a NaN makes each false (R115). -/
def cmpLane (f : VFmt) (fl : FV → FV → Bool) (it : Int → Int → Bool) (a b : Nat) : Nat × Flags :=
  let r := if f.isFloat then fl (f.float.decode a) (f.float.decode b) else it (intLane f a) (intLane f b)
  noFlags (if r then 2 ^ f.width - 1 else 0)

/-- What an operation's row result does to rows (R107). -/
def vecWrites (nwb : Bool) (d : BitVec 6) (e : Env) : List Nat := if nwb then [] else e.rowKeys [d]

/-- A vector operation with sources a and b (R106, R109). -/
def vec2 (lat : Nat) (nwb : Bool) (d a b : BitVec 6) (f : Row → Row → Row × Flags) : SlotOp :=
  { reads := fun e => e.rowKeys [a, b], writes := vecWrites nwb d, queues := queueCodes [a, b]
    issue := fun e s =>
      match e.src 0 a, e.src 1 b with
      | .error t, _ => .error t
      | _, .error t => .error t
      | .ok x, .ok y =>
        let r := f x y
        .ok (e.flyRow (e.capture 1 y (e.capture 0 x s)) lat nwb d r.1 r.2) }

/-- A vector operation with source a (R106, R109). -/
def vec1 (lat : Nat) (nwb : Bool) (d a : BitVec 6) (f : Row → Row × Flags) : SlotOp :=
  { reads := fun e => e.rowKeys [a], writes := vecWrites nwb d, queues := queueCodes [a]
    issue := fun e s =>
      match e.src 0 a with
      | .error t => .error t
      | .ok x =>
        let r := f x
        .ok (e.flyRow (e.capture 0 x s) lat nwb d r.1 r.2) }

/-- A vector operation that reads its destination as c (R28, R106): f takes c, a, b. -/
def vec3 (lat : Nat) (nwb : Bool) (d a b : BitVec 6) (f : Row → Row → Row → Row × Flags) : SlotOp :=
  { reads := fun e => e.rowKeys [a, b, d], writes := vecWrites nwb d, queues := queueCodes [a, b]
    issue := fun e s =>
      match e.src 0 a, e.src 1 b, e.src 2 d with
      | .error t, _, _ => .error t
      | _, .error t, _ => .error t
      | _, _, .error t => .error t
      | .ok x, .ok y, .ok c =>
        let r := f c x y
        .ok (e.flyRow (e.capture 2 c (e.capture 1 y (e.capture 0 x s))) lat nwb d r.1 r.2) }

/-- A vector operation with a scalar source (R120). -/
def vecS (lat : Nat) (nwb : Bool) (d sa : BitVec 6) (f : Word → Row) : SlotOp :=
  { reads := fun _ => [sKey sa.toNat], writes := vecWrites nwb d
    issue := fun e s => .ok (e.flyRow s lat nwb d (f (e.S sa)) 0) }

/-- The latency of opcodes 1 to 10 (R109). -/
def arithLat (f : VFmt) : Nat := if f.isFloat then 4 else 2

def vaddOp (f : VFmt) (nwb : Bool) (d a b : BitVec 6) := vec2 (arithLat f) nwb d a b (zipRow f.width (addLane f))
def vsubOp (f : VFmt) (nwb : Bool) (d a b : BitVec 6) := vec2 (arithLat f) nwb d a b (zipRow f.width (subLane f))
def vmulOp (f : VFmt) (nwb : Bool) (d a b : BitVec 6) := vec2 (arithLat f) nwb d a b (zipRow f.width (mulLane f))
def vfmaOp (f : VFmt) (nwb : Bool) (d a b : BitVec 6) := vec3 (arithLat f) nwb d a b (zip3Row f.width (fmaLane f))
def vfmsOp (f : VFmt) (nwb : Bool) (d a b : BitVec 6) := vec3 (arithLat f) nwb d a b (zip3Row f.width (fmsLane f))
def vminOp (f : VFmt) (nwb : Bool) (d a b : BitVec 6) := vec2 (arithLat f) nwb d a b (zipRow f.width (minLane f))
def vmaxOp (f : VFmt) (nwb : Bool) (d a b : BitVec 6) := vec2 (arithLat f) nwb d a b (zipRow f.width (maxLane f))
def vabsOp (f : VFmt) (nwb : Bool) (d a : BitVec 6) := vec1 (arithLat f) nwb d a (mapRow f.width (absLane f))
def vnegOp (f : VFmt) (nwb : Bool) (d a : BitVec 6) := vec1 (arithLat f) nwb d a (mapRow f.width (negLane f))
def vabdOp (f : VFmt) (nwb : Bool) (d a b : BitVec 6) := vec2 (arithLat f) nwb d a b (zipRow f.width (abdLane f))
def vandOp (nwb : Bool) (d a b : BitVec 6) := vec2 2 nwb d a b fun x y => (x &&& y, 0)
def vorOp (nwb : Bool) (d a b : BitVec 6) := vec2 2 nwb d a b fun x y => (x ||| y, 0)
def vxorOp (nwb : Bool) (d a b : BitVec 6) := vec2 2 nwb d a b fun x y => (x ^^^ y, 0)
def vshlOp (f : VFmt) (nwb : Bool) (d a b : BitVec 6) := vec2 2 nwb d a b (zipRow f.width (shiftLane f fun x n => x * 2 ^ n % 2 ^ f.width))
def vshrOp (f : VFmt) (nwb : Bool) (d a b : BitVec 6) := vec2 2 nwb d a b (zipRow f.width (shiftLane f fun x n => x / 2 ^ n))
def vsraOp (f : VFmt) (nwb : Bool) (d a b : BitVec 6) :=
  vec2 2 nwb d a b (zipRow f.width (shiftLane f fun x n => wrap f.width (signExt x f.width / 2 ^ n)))
def vaddsOp (f : VFmt) (nwb : Bool) (d a b : BitVec 6) := vec2 2 nwb d a b (zipRow f.width (satLane f fun x y => x + y))
def vsubsOp (f : VFmt) (nwb : Bool) (d a b : BitVec 6) := vec2 2 nwb d a b (zipRow f.width (satLane f fun x y => x - y))
def vcmpeqOp (f : VFmt) (nwb : Bool) (d a b : BitVec 6) :=
  vec2 2 nwb d a b (zipRow f.width (cmpLane f FV.eqv fun x y => decide (x = y)))
def vcmpltOp (f : VFmt) (nwb : Bool) (d a b : BitVec 6) :=
  vec2 2 nwb d a b (zipRow f.width (cmpLane f FV.lt fun x y => decide (x < y)))
def vcmpleOp (f : VFmt) (nwb : Bool) (d a b : BitVec 6) :=
  vec2 2 nwb d a b (zipRow f.width (cmpLane f (fun x y => FV.lt x y || FV.eqv x y) fun x y => decide (x ≤ y)))
/-- VSEL: c is the mask (R116). -/
def vselOp (nwb : Bool) (d a b : BitVec 6) := vec3 2 nwb d a b fun c x y => ((x &&& c) ||| (y &&& ~~~c), 0)
def vexp2Op (f : VFmt) (nwb : Bool) (d a : BitVec 6) := vec1 8 nwb d a (mapRow f.width (transLane f.float exp2))
def vlog2Op (f : VFmt) (nwb : Bool) (d a : BitVec 6) := vec1 8 nwb d a (mapRow f.width (transLane f.float log2))
def vrcpOp (f : VFmt) (nwb : Bool) (d a : BitVec 6) := vec1 8 nwb d a (mapRow f.width (transLane f.float rcp))
def vrsqOp (f : VFmt) (nwb : Bool) (d a : BitVec 6) := vec1 8 nwb d a (mapRow f.width (transLane f.float rsq))
def vcvtOp (f : VFmt) (nwb : Bool) (d a : BitVec 6) (from_ : VFmt) (inf : Bool) :=
  vec1 4 nwb d a (cvtRow from_.toX f.toX inf)

/-- The same lane everywhere. -/
def splat (f : VFmt) (v : Nat) : Row := packRow f.width (List.replicate f.lanes v)
def vbcastOp (f : VFmt) (nwb : Bool) (d a lane : BitVec 6) :=
  vec1 3 nwb d a fun x => (splat f ((lanes x f.width).getD lane.toNat 0), 0)
def vbcsOp (f : VFmt) (nwb : Bool) (d sa : BitVec 6) := vecS 2 nwb d sa fun w => splat f w.toNat
def vmovOp (nwb : Bool) (d a : BitVec 6) := vec1 2 nwb d a fun x => (x, 0)
def viotaOp (f : VFmt) (nwb : Bool) (d sa : BitVec 6) :=
  vecS 2 nwb d sa fun w => packRow f.width ((List.range f.lanes).map fun i => w.toNat + i)
def vpermOp (f : VFmt) (nwb : Bool) (d a b : BitVec 6) :=
  vec2 3 nwb d a b fun x y => let l := lanes x f.width; (packRow f.width ((lanes y f.width).map fun i => l.getD (i % f.lanes) 0), 0)

/-- The lane that pattern p of n lanes puts at lane i; none for a lane of zeros (R122). -/
def shufLane (p n i : Nat) : Option Nat :=
  if p < 8 then some (i ^^^ (2 ^ (p + 1) - 1))
  else if p < 16 then some (i ^^^ 2 ^ (p - 8))
  else if p < 24 then some ((i + 2 ^ (p - 16)) % n)
  else if p < 32 then (if i + 2 ^ (p - 24) < n then some (i + 2 ^ (p - 24)) else none)
  else if p < 40 then (if 2 ^ (p - 32) ≤ i then some (i - 2 ^ (p - 32)) else none)
  else if p = 40 then some (if i % 2 = 0 then i / 2 else n / 2 + i / 2)
  else if p = 41 then some (if i < n / 2 then 2 * i else 2 * (i - n / 2) + 1)
  else if p = 42 then (if i < n / 2 then some (n / 2 + i) else none)
  else if n / 2 ≤ i then some (i - n / 2) else none
def shuf (f : VFmt) (p : Nat) (x : Row) : Row :=
  let l := lanes x f.width
  packRow f.width ((List.range f.lanes).map fun i => match shufLane p f.lanes i with | some j => l.getD j 0 | none => 0)
def vshufOp (f : VFmt) (nwb : Bool) (d a p : BitVec 6) := vec1 3 nwb d a fun x => (shuf f p.toNat x, 0)

/-- The running value of a reduction, its flags, and the values after each lane (R67). -/
def reduce (f : VFmt) (op : Nat → Nat → Nat × Flags) : List Nat → List Nat × Flags
  | [] => ([], 0)
  | x :: xs =>
    let s0 := if f.isFloat && (f.float.decode x).isNan then f.float.nan else x
    let r := xs.foldl (fun (a : List Nat × Nat × Flags) y => let v := op a.2.1 y; (v.1 :: a.1, v.1, a.2.2 ||| v.2)) ([s0], s0, 0)
    (r.1.reverse, r.2.2)
/-- VREDADD, VREDMAX, VREDMIN: the last value in lane 0 (R124). -/
def redRow (f : VFmt) (op : Nat → Nat → Nat × Flags) (x : Row) : Row × Flags :=
  let r := reduce f op (lanes x f.width)
  (packRow f.width [r.1.getLastD 0], r.2)
def vredaddOp (f : VFmt) (nwb : Bool) (d a : BitVec 6) := vec1 6 nwb d a (redRow f (addLane f))
def vredmaxOp (f : VFmt) (nwb : Bool) (d a : BitVec 6) := vec1 6 nwb d a (redRow f (maxLane f))
def vredminOp (f : VFmt) (nwb : Bool) (d a : BitVec 6) := vec1 6 nwb d a (redRow f (minLane f))
/-- VSCAN (R125). -/
def vscanOp (f : VFmt) (nwb : Bool) (d a : BitVec 6) :=
  vec1 6 nwb d a fun x => let r := reduce f (addLane f) (lanes x f.width); (packRow f.width r.1, r.2)

/-- VDOT4 (R126). -/
def dot4 (f : VFmt) (c a b : Row) : Row :=
  let p := ((lanes a 8).zip (lanes b 8)).map fun e => intLane f e.1 * intLane f e.2
  packRow 32 (((lanes c 32).zip (chunks 4 64 p)).map fun e => wrap 32 ((e.1 : Int) + e.2.foldl (· + ·) 0))
def vdot4Op (f : VFmt) (nwb : Bool) (d a b : BitVec 6) := vec3 4 nwb d a b fun c x y => (dot4 f c x y, 0)

/-- Lanes with a nonzero bit pattern (R117). -/
def nonzeroLanes (f : VFmt) (x : Row) : Nat := ((lanes x f.width).filter (· != 0)).length

/-- An operation on row a whose result goes to a scalar or a pair: no latch of the slot's results moves (R107). -/
def vecOut (a : BitVec 6) (writes : List Nat) (out : Env → State → Row → State) : SlotOp :=
  { reads := fun e => e.rowKeys [a], writes := fun _ => writes, queues := queueCodes [a]
    issue := fun e s =>
      match e.src 0 a with
      | .error t => .error t
      | .ok x => .ok (out e (e.capture 0 x s) x) }
def vmskpOp (f : VFmt) (pair : BitVec 3) (a : BitVec 6) :=
  vecOut a [] fun e s x => e.flyPair s 2 pair (nonzeroLanes f x != 0)
def vmskcOp (f : VFmt) (sd a : BitVec 6) :=
  vecOut a [sKey sd.toNat] fun e s x => e.flyS s 2 sd (BitVec.ofNat 64 (nonzeroLanes f x))
/-- VMOVS: sign-extended under I formats (R123). -/
def vmovsOp (f : VFmt) (sd a lane : BitVec 6) :=
  vecOut a [sKey sd.toNat] fun e s x =>
    e.flyS s 3 sd (BitVec.ofNat 64 (wrap 64 (intLane f ((lanes x f.width).getD lane.toNat 0))))

/-- VINS: the destination row with one lane replaced (R123). -/
def vinsOp (f : VFmt) (nwb : Bool) (d sa lane : BitVec 6) : SlotOp :=
  { reads := fun e => sKey sa.toNat :: e.rowKeys [d], writes := vecWrites nwb d
    issue := fun e s =>
      match e.src 2 d with
      | .error t => .error t
      | .ok c =>
        .ok (e.flyRow (e.capture 2 c s) 3 nwb d (packRow f.width ((lanes c f.width).set lane.toNat (e.S sa).toNat)) 0) }

end Sys2Proof.Machine
end

