-- ==== Sys2Proof/Machine/EngineRun.lean ====
section
/-! DEFINITION. Engine commands and threads: fork and publication, the engine queue, copy channels, signals, triggers, histograms, top-k, collectives, pod transfers, their completion (R190 to R207, R213 to R216, R335). -/

namespace Sys2Proof.Machine

/-- A collective's element format (R206). -/
def EngCmd.collFmt (c : EngCmd) : VFmt :=
  match c.n 1 1 with
  | 0 => .fp32
  | 1 => .bf16
  | 3 => .i32
  | _ => .n32
/-- Whether a virtual address lies in a command's global source range (R193). An expand's range is the longest its rows can take. -/
def EngCmd.source (c : EngCmd) (ram : Tab Byte) (va : Nat) : Bool :=
  let within (a n : Nat) : Bool := decide (a ≤ va) && decide (va < a + n)
  match c.op with
  | 1 | 2 | 3 =>
    c.n 0 1 == 0 && (if c.n 3 1 = 1 then within (c.n 8 8) (c.n 24 4 / 256 * 264) else (c.runs ram).any fun r => within r.1 (c.n 24 4))
  | 4 => c.n 0 1 == 0 && within (c.n 8 8) (c.n 24 8)
  | 6 => within (c.n 16 8) (c.n 8 8 * (c.collFmt.width / 8))
  | _ => false

/-- Whether a command's fork must have published the word of a byte: one that overlaps its source range, or that its release covers
(R193, R207, R213, R297). -/
def State.engNeeds (s : State) (k : Nat) (c : EngCmd) (pa : Nat) : Bool :=
  let p := s.partOf k
  match c.op with
  | 7 | 9 | 11 => s.inRange p c.scope pa
  | _ => s.virtAny p (pa / 4 * 4) fun va => (List.range 4).any fun i => c.source (s.core k).ram (va + i)

/-- Whether what a command's fork published has been acknowledged: earlier writes of the core, and home atomics under a scope. -/
def State.covered (s : State) (k : Nat) (c : EngCmd) : Bool :=
  s.reqs.all fun r =>
    !(r.g / 4 == k && r.isWrite && decide (r.id < c.after) &&
      ((r.data.any fun d => s.engNeeds k c d.1) || ((c.op == 7 || c.op == 9 || c.op == 11) && s.engNeeds k c (r.line * 128))))

/-- The writer an engine acts as (R340). -/
def EngCmd.writer (c : EngCmd) (p : Nat) : Writer := { tag := c.tag, p := p }

/-- The fork's write of a completion object: state running, progress 0, seen by the issuing core at once (R193). -/
def State.coFork (s : State) (k : Nat) (c : EngCmd) : State :=
  match c.comp with
  | none => s
  | some co =>
    let p := s.partOf k
    match s.resolve p co 8 .write with
    | .error _ => s
    | .ok pa =>
      let bs := addrBytes pa (natBytes 8 1 ++ natBytes 8 0)
      let s := (s.homeWrite (c.writer p) bs).patchCopies k bs
      s.updCore k fun x => { x with unpub := Tab.keep (fun a _ => !(decide (pa ≤ a) && decide (a < pa + 16))) x.unpub }

/-- Pushes into a route histogram, saturating (R214). -/
def State.histPush (s : State) (sh h : Nat) (ids : List Byte) : State :=
  s.updShroud sh fun x =>
    { x with hist := ids.foldl (fun t i => Tab.set 0 t (h * 256 + i.toNat) (min (Tab.get 0 t (h * 256 + i.toNat) + 1) (2 ^ 32 - 1))) x.hist }

/-- Bytes of the journal in use (R276). -/
def Core.journalUsed (c : Core) : Nat := (c.journal.map JEntry.size).foldl (· + ·) 0

/-- The journal entry of a KVAPP command; the bytes it takes are in `imm` (R276). -/
def EngCmd.jentry (c : EngCmd) : JEntry :=
  { g := c.g, launch := c.launch, tag := c.tag, hnd := c.a, size := c.imm, record := c.record.take 32, data := c.record.drop 32 }

/-- An append entry placed in the journal, the pending count of the sequence entry its handle names raised at once: the filer lowers
it whether or not the handle's generation stands (R276, R277). -/
def State.place (s : State) (k : Nat) (j : JEntry) : State :=
  let p := s.partOf k
  let s := s.updCore k fun x => { x with journal := x.journal ++ [j] }
  match s.storeOf p (field j.hnd.toNat 26 6) with
  | none => s
  | some t =>
    let slot := field j.hnd.toNat 6 20
    s.seqPut { tag := j.tag, p := p } t slot 32 4 (s.seqN p t slot 32 4 + 1)

/-- Appends of a context that wait for journal room after a segment (R197, R276). -/
def State.appsWaiting (s : State) (g : Nat) : Bool :=
  (s.threads.any fun t => t.cmd.op == 16 && t.cmd.g == g) || (s.core (g / 4)).engq.any fun c => c.op == 16 && c.g == g

/-- The pages of a range of a KVPF: those whose block is not in tier 0 are asked for (R217, R284). -/
def State.wantPages (s : State) (p : Nat) (h range : Word) : State :=
  match s.handle p h.toNat with
  | none => s
  | some (id, t, slot) =>
    let last := field range.toNat 0 23
    let first := field range.toNat 23 23
    let refs := (List.range (s.seqN p t slot 12 4)).filterMap fun pi =>
      if last < first ∨ (pi + 1) * t.T ≤ first ∨ last < pi * t.T then none
      else
        let e := s.pageE p t slot pi
        if !peValid e then none
        else
          match s.blockOf p t e with
          | some b => if b.tier = 0 then none else some (id, b.ref)
          | none => none
    s.updPart p fun x => { x with wants := x.wants ++ refs.filter fun r => !x.wants.contains r }

/-- A command forks (R193): its publication, its completion object running, then its place in the queue or its effect. -/
def State.fork (s : State) (k : Nat) (c : EngCmd) : State :=
  let s := s.publish k fun a _ => s.engNeeds k c a
  let c := { c with after := s.nextReq, seq := s.nextThread }
  let s : State := { s with nextThread := s.nextThread + 1 }
  let s := if c.op = 9 then s else s.coFork k c
  match c.op with
  | 12 => s.histPush (k / 4) (field c.b.toNat 32 4) c.record
  | 22 => s.wantPages (s.partOf k) c.a c.b
  | 16 =>
    if (s.core k).journalUsed + c.jentry.size ≤ 524288 ∧ !s.appsWaiting c.g then s.place k c.jentry
    else s.updCore k fun x => { x with engq := x.engq ++ [c] }
  | _ => s.updCore k fun x => { x with engq := x.engq ++ [c] }

/-- Whether two commands come from one context (R216, R221): also from a unit that a pre-emption has moved to another. -/
def EngCmd.sameSender (c d : EngCmd) : Bool := c.g == d.g || (c.by_.isSome && c.by_ == d.by_)

/-- Commands forked before one, queued or under way, with the cores they were forked on. -/
def State.earlier (s : State) (seq : Nat) : List (Nat × EngCmd) :=
  ((s.threads.map fun t => (t.core, t.cmd)) ++ (List.range 32).flatMap fun k => (s.core k).engq.map fun c => (k, c)).filter fun c =>
    decide (c.2.seq < seq)

/-- A change of one thread. -/
def State.updThread (s : State) (id : Nat) (f : Thread → Thread) : State :=
  { s with threads := s.threads.map fun t => if t.id = id then f t else t }

/-- Whether an engine takes a command now: a copy channel holds four behind the one running (R202). -/
def Core.accepts (c : Core) (m : EngCmd) : Bool :=
  !m.isCopy || (Tab.get Chan.idle c.chans m.chan).run.isNone || decide ((Tab.get Chan.idle c.chans m.chan).wait.length < 4)

/-- ENGINE_ACCEPT (R192, R202): the first command an engine can take becomes a thread; a copy starts on an idle channel. -/
def State.engAccept (s : State) (k : Nat) : State :=
  match (s.core k).engq.findIdx? (s.core k).accepts with
  | none => s
  | some i =>
    match (s.core k).engq[i]? with
    | none => s
    | some m =>
      let id := m.seq
      let t : Thread := { id := id, cmd := m, core := k, p := s.partOf k }
      let s : State := { s with threads := s.threads ++ [t] }
      s.updCore k fun x =>
        let x := { x with engq := x.engq.eraseIdx i }
        if !m.isCopy then x
        else
          let ch := Tab.get Chan.idle x.chans m.chan
          let ch : Chan := if ch.run.isNone then ⟨some id, [], 0, some m⟩ else { ch with wait := ch.wait ++ [id] }
          { x with chans := Tab.set Chan.idle x.chans m.chan ch }

/-- The reason code of an engine access that a check of R131 refuses (R195, R196). -/
def engCode : TrapCode → Nat
  | .page => 1
  | .window => 3
  | .ue => 4
  | _ => 2

/-- A byte read by an engine of core k under its translations (R199, R335, R351): global at its home, local, or in the column store;
else a reason. -/
def State.engRead (s : State) (pages : Tab (Option PageMap)) (k space a : Nat) : Except Nat Byte :=
  let p := s.partOf k
  match space with
  | 0 =>
    match s.resolveVia pages p (BitVec.ofNat 64 a) 1 .read with
    | .error t => .error (engCode t)
    | .ok pa => if s.isBad (s.homeShroud p pa) (pa / 128) then .error 4 else .ok (s.homeByte pa)
  | 1 => if a < (s.core k).split * 524288 then .ok (Mem.read (s.core k).ram a) else .error 2
  | _ => if a < 384 * 65536 ∧ a % 65536 < 0xF000 then .ok (Mem.read (s.core k).col a) else .error 9

/-- Where an engine's write goes: a physical address, or a local one of every target core (R199); else a reason. -/
def State.engWhere (s : State) (pages : Tab (Option PageMap)) (k : Nat) (cores : List Nat) (space a : Nat) : Except Nat Nat :=
  match space with
  | 0 => (s.resolveVia pages (s.partOf k) (BitVec.ofNat 64 a) 1 .write).mapError engCode
  | 1 => if cores.all fun j => decide (a < (s.core j).split * 524288) then .ok a else .error 2
  | _ => if a < 384 * 65536 ∧ a % 65536 < 0xF000 then .ok a else .error 9

/-- Bytes written by an engine, on every target core for a local space (R200, R335). -/
def State.engWrite (s : State) (w : Writer) (space : Nat) (cores : List Nat) (bs : List (Nat × Byte)) : State :=
  match space with
  | 0 => s.homeWrite w bs
  | 1 => cores.foldl (fun s k => s.updCore k fun x => { x with ram := bs.foldl (fun m e => Mem.write m e.1 e.2) x.ram }) s
  | _ => cores.foldl (fun s k => s.updCore k fun x => { x with col := bs.foldl (fun m e => Mem.write m e.1 e.2) x.col }) s

/-- The values before the first failure, and the failure. -/
def takeOk {ε α : Type} : List (Except ε α) → List α × Option ε
  | [] => ([], none)
  | .error e :: _ => ([], some e)
  | .ok a :: r => let t := takeOk r; (a :: t.1, t.2)

/-- Reads of addresses, and places of writes, each failure with its address. -/
def State.engReads (s : State) (k space : Nat) (as : List Nat) : List Byte × Option (Nat × Nat) :=
  takeOk (as.map fun a => (s.engRead (s.part (s.partOf k)).pages k space a).mapError fun c => (c, a))
def State.engWheres (s : State) (k space : Nat) (as : List Nat) : List Nat × Option (Nat × Nat) :=
  takeOk (as.map fun a => (s.engWhere (s.part (s.partOf k)).pages k [k] space a).mapError fun c => (c, a))

/-- A thread is final: its state, reason, faulting address. -/
def State.threadEnd (s : State) (id st code va : Nat) : State :=
  s.updThread id fun t => { t with state := st, code := code, faultVa := BitVec.ofNat 64 va }

/-- The channel goes on to its next command, whose start resets the pointer (R202). -/
def State.chanNext (s : State) (k ch : Nat) : State :=
  let cmd (id : Nat) : Option EngCmd := (s.threads.find? fun t => t.id == id).map fun t => t.cmd
  s.updCore k fun x =>
    let c := Tab.get Chan.idle x.chans ch
    let c : Chan := match c.wait with
      | [] => { c with run := none }
      | n :: r => ⟨some n, r, 0, cmd n⟩
    { x with chans := Tab.set Chan.idle x.chans ch c }

/-- The unit that progress and faults count a copy in: bytes, elements, or the rows of an expand (R195, R201). -/
def EngCmd.unit (c : EngCmd) : Nat := if c.n 3 1 = 1 ∨ c.n 1 1 = 3 then 256 else if c.op = 1 then 1 else c.n 24 4

/-- The end of the bytes a channel moves at once: whole units, as long as the next begins in the destination granule that the last
ended in, so that the array never meets a torn granule (R165, R202). -/
def EngCmd.batchEnd (c : EngCmd) (ram : Tab Byte) : Nat → Nat → Nat
  | 0, j => j
  | fuel + 1, j =>
    if c.total ≤ j ∨ (c.addrs ram j).2 / 128 ≠ (c.addrs ram (j - 1)).2 / 128 then j else c.batchEnd ram fuel (j + c.unit)
def EngCmd.batch (c : EngCmd) (ram : Tab Byte) (lo : Nat) : Nat :=
  if c.n 1 1 = 3 then 256 else c.batchEnd ram (if c.unit = 1 then 127 else c.total / c.unit) (lo + c.unit) - lo

/-- A source byte of a copy: one of the 16-byte piece that its last batch has read already, else as it stands (R321, R335). -/
def State.copyRead (s : State) (kept : List (Nat × Byte)) (pages : Tab (Option PageMap)) (k space a : Nat) : Except Nat Byte :=
  match (if space = 0 then kept.find? fun e => e.1 == a else none) with
  | some e => .ok e.2
  | none => s.engRead pages k space a

/-- The rest of the aligned 16-byte global piece whose byte `a` a copy took last: read with it, at one moment (R321). -/
def State.restOfPiece (s : State) (kept : List (Nat × Byte)) (pages : Tab (Option PageMap)) (k space a : Nat) : List (Nat × Byte) :=
  if space ≠ 0 then []
  else ((List.range 15).map fun i => a + 1 + i).filterMap fun b =>
    if b / 16 = a / 16 then (match s.copyRead kept pages k space b with | .ok v => some (b, v) | .error _ => none) else none

/-- The next row of an expand (R201): decoded, with the length of its encoding, or a failure. -/
def State.expandNext (s : State) (kept : List (Nat × Byte)) (pages : Tab (Option PageMap)) (k : Nat) (c : EngCmd) (pos : Nat) :
    (List Byte × Nat) ⊕ (Nat × Nat) :=
  let a := (c.n 8 8 + pos) % 2 ^ 64
  let rd (o : Nat) : Except Nat Byte := s.copyRead kept pages k (c.n 0 1) (a + o)
  let val (o : Nat) : Byte := match rd o with | .ok b => b | .error _ => 0
  let mask (o : Nat) : List Byte := (List.range 16).map fun i => val (o + i)
  let l0 := blockLen (val 0) (mask 1)
  let l1 := blockLen (val l0) (mask (l0 + 1))
  match rd 0 with
  | .error e => .inr (e, a)
  | .ok h0 =>
    if !headerOk h0 then .inr (12, a)
    else
      match rd l0 with
      | .error e => .inr (e, a + l0)
      | .ok h1 =>
        if !headerOk h1 then .inr (12, a + l0)
        else
          match takeOk ((List.range (l0 + l1)).map fun o => (rd o).mapError fun c => (c, a + o)) with
          | (_, some f) => .inr f
          | (bs, none) => .inl (blockDecode (bs.take l0) ++ blockDecode (bs.drop l0), ceilDiv (l0 + l1) 8 * 8)

/-- The next rows of an expand, with the lengths of their encodings, and what stops them. -/
def State.expandRows (s : State) (kept : List (Nat × Byte)) (pages : Tab (Option PageMap)) (k : Nat) (c : EngCmd) :
    Nat → Nat → List (List Byte × Nat) × Option (Nat × Nat)
  | 0, _ => ([], none)
  | n + 1, pos =>
    match s.expandNext kept pages k c pos with
    | .inr f => ([], some f)
    | .inl r => let rest := s.expandRows kept pages k c n (pos + r.2); (r :: rest.1, rest.2)

/-- Bytes of the delivery order land: the channel's pointer and the thread's progress move, and the end is noted (R195, R202).
`fault` is what stopped the batch short. -/
def State.landed (s : State) (k : Nat) (t : Thread) (lo done : Nat) (fault : Option (Nat × Nat)) : State :=
  let c := t.cmd
  let ch := c.chan
  let wp := if done = c.total then done else done / 128 * 128
  let s := s.updCore k fun x =>
    { x with chans := Tab.set Chan.idle x.chans ch { Tab.get Chan.idle x.chans ch with wp := BitVec.ofNat 64 wp }
             perfCopy := x.perfCopy + BitVec.ofNat 64 (done - lo) }
  let s := s.updThread t.id fun t => { t with progress := if c.op = 1 then done else done / c.n 24 4 }
  match fault with
  | some (code, va) => (s.threadEnd t.id 4 code va).chanNext k ch
  | none => if done = c.total then (s.threadEnd t.id 2 0 0).chanNext k ch else s

/-- The running copy of a channel: its thread, where it stands in its delivery order, the places its next batch covers. -/
def State.copyAt (s : State) (k ch : Nat) : Option (Thread × Nat × List Nat) :=
  match (Tab.get Chan.idle (s.core k).chans ch).run with
  | none => none
  | some id =>
    (s.threads.find? fun t => t.id == id).map fun t =>
      let lo := if t.cmd.op = 1 then t.progress else t.progress * t.cmd.n 24 4
      (t, lo, (List.range (t.cmd.batch (s.core k).ram lo)).map fun i => lo + i)

/-- Whether a copy's next batch reads or writes a global line that f picks (R383). -/
def State.batchTouches (s : State) (k : Nat) (t : Thread) (js : List Nat) (f : Nat → Bool) : Bool :=
  let c := t.cmd
  let hit (a : Nat) (acc : Acc) : Bool := match s.resolve t.p (BitVec.ofNat 64 a) 1 acc with | .ok pa => f (pa / 128) | .error _ => false
  let from_ := if c.n 3 1 = 1 then (List.range 512).map fun i => c.n 8 8 + t.pos + i else js.map fun j => (c.addrs (s.core k).ram j).1
  (c.n 0 1 == 0 && from_.any fun a => hit a .read) || (c.n 1 1 == 0 && js.any fun j => hit (c.addrs (s.core k).ram j).2 .write)

/-- Whether the next bytes of a copy take it into another 4 KiB of its transfer (R351, R383). -/
def Thread.enters (t : Thread) (js : List Nat) : Bool := t.piece != js.getLast?.map fun j => j / 4096

/-- The translations that byte j of a copy goes by: those of the piece it is in, or of now when it enters another (R351). -/
def State.pagesAt (s : State) (t : Thread) (j : Nat) : Tab (Option PageMap) :=
  if t.piece = some (j / 4096) then t.pages else (s.part t.p).pages

/-- Whether a copy waits: at a 4 KiB boundary of its delivery order for a page whose bias flips (R383), or for the host or a pool device
(R374, R385). -/
def State.copyStalls (s : State) (k : Nat) (t : Thread) (js : List Nat) : Bool :=
  (t.enters js && s.batchTouches k t js s.flipping) || s.batchTouches k t js fun line => s.hostCut line || s.poolCut t.p line

/-- Global byte ranges that an engine's command reads or writes (R199 to R216). -/
def EngCmd.globals (c : EngCmd) (ram : Tab Byte) : List (Nat × Nat) :=
  match c.op with
  | 1 | 2 | 3 =>
    (if c.n 0 1 = 0 then (if c.n 3 1 = 1 then [(c.n 8 8, c.n 24 4 / 256 * 264)] else (c.runs ram).map fun r => (r.1, c.n 24 4)) else []) ++
    (if c.n 1 1 = 0 then (c.runs ram).map fun r => (r.2, c.n 24 4) else [])
  | 4 | 5 => if c.n 0 1 = 0 then [(c.n 8 8, c.n 24 8)] else []
  | 6 => [(c.n 16 8, c.n 8 8 * (c.collFmt.width / 8)), (c.n 24 8, c.n 8 8 * (c.collFmt.width / 8))]
  | 7 => [(c.a.toNat, 8)]
  | 9 => [(c.a.toNat, 128)]
  | 13 => (c.n 8 8, 128 * c.n 2 2) :: (if c.n 40 8 = 0 then [] else [(c.n 40 8, 4 * c.n 2 2)])
  | _ => []

/-- Whether ranges of virtual addresses of a partition touch a page whose mapping `sel` picks. -/
def State.pagesOn (s : State) (p : Nat) (rs : List (Nat × Nat)) (sel : PageMap → Bool) : Bool :=
  (s.part p).pages.any fun e =>
    match e.2 with
    | none => false
    | some m =>
      let base := (if e.1 < 2 ^ 38 then 0 else 2 ^ 64 - 2 ^ 55) + e.1 * 65536
      sel m && rs.any fun r => decide (r.1 < base + 65536) && decide (base < r.1 + r.2)

/-- Whether a thread reads or writes a page that `sel` picks. -/
def State.threadOn (s : State) (t : Thread) (sel : PageMap → Bool) : Bool := s.pagesOn t.p (t.cmd.globals (s.core t.core).ram) sel

/-- Whether some line of a page stalls (R374, R383, R385). -/
def State.pageStalls (s : State) (p : Nat) (m : PageMap) : Bool :=
  let line := pagePa m 0 / 128
  if m.mtype = .pool then (List.range 512).any fun i => s.poolCut p (line + i) else s.flipping line || s.hostCut line

/-- Whether what a thread does next waits for a page it reads or writes (R374, R383, R385): a copy is stalled by its pieces, and by its
completion object once they have landed. -/
def State.threadStalls (s : State) (t : Thread) : Bool :=
  s.pagesOn t.p ((if t.cmd.isCopy then [] else t.cmd.globals (s.core t.core).ram) ++
    (match t.cmd.comp with | some co => [(co.toNat, 32)] | none => [])) (s.pageStalls t.p)

/-- COPY_GRANULE_LANDS (R195, R200 to R203): the running command of a channel moves its next bytes, once its fork's
publication is acknowledged; a full target queue stalls it, and so does a flip of bias (R383). -/
def State.granule (s : State) (k ch : Nat) : State :=
  match s.copyAt k ch with
  | none => s
  | some (t, lo, js) =>
      let c := t.cmd
      let ram := (s.core k).ram
      let n := js.length
      let space := c.n 1 1
      let q := c.n 16 8
      let qfull := space == 3 && decide (8 ≤ (Tab.get [] (s.core (q / 4)).queues (q % 4)).length)
      if !s.covered k c || qfull || s.copyStalls k t js then s
      else
        let rows := s.expandRows t.kept (s.pagesAt t lo) k c (if c.n 3 1 = 1 then n / 256 else 0) t.pos
        let src : List Byte × Option (Nat × Nat) :=
          if c.n 3 1 = 1 then ((rows.1.map (·.1)).flatten, rows.2)
          else takeOk (js.map fun j =>
            (s.copyRead t.kept (s.pagesAt t j) k (c.n 0 1) (c.addrs ram j).1).mapError fun e => (e, (c.addrs ram j).1))
        let dst : List Nat × Option (Nat × Nat) :=
          if space = 3 then (js.take src.1.length, none)
          else takeOk ((js.take src.1.length).map fun j =>
            (s.engWhere (s.pagesAt t j) k (c.targets k) space (c.addrs ram j).2).mapError fun e => (e, (c.addrs ram j).2))
        let unit := if c.unit = 1 then n else c.unit
        let m := dst.1.length / unit * unit
        let pos := t.pos + ((rows.1.take (m / 256)).map (·.2)).foldl (· + ·) 0
        let last := if c.n 3 1 = 1 then (c.n 8 8 + pos - 1) % 2 ^ 64 else (c.addrs ram (lo + m - 1)).1
        let kept := if m = 0 then t.kept else s.restOfPiece t.kept (s.pagesAt t (lo + m - 1)) k (c.n 0 1) last
        let s := s.updThread t.id fun t =>
          { t with pos := pos, kept := kept
                   piece := js.getLast?.map (· / 4096), pages := if t.enters js then (s.part t.p).pages else t.pages }
        let s := if space = 3 then
            (if m = 0 then s else s.updCore (q / 4) fun x =>
              { x with queues := Tab.set [] x.queues (q % 4) (Tab.get [] x.queues (q % 4) ++ [bytesRow src.1]) })
          else s.engWrite (c.writer t.p) space (c.targets k) ((dst.1.zip src.1).take m)
        s.landed k t lo (lo + m) (match src.2 with | some f => some f | none => dst.2)

/-- A thread leaves with its final state written as a release, a fault with its record (R195, R342 source 3). -/
def State.threadOut (s : State) (t : Thread) (st code progress : Nat) (va : Word) : State :=
  let (s, f) := if st = 4 then
      s.faultRecord t.p { code := code, source := 3, launch := (t.cmd.launch.map s.launchId).getD 0, addr := va, progress := progress }
    else (s, 0)
  let s := s.compWrite (t.cmd.writer t.p) t.cmd.comp st code progress f
  { s with threads := s.threads.filter fun u => u.id != t.id }

/-- The same for an access of its own that a gate may have refused, which the gate counts (R363, R364). -/
def State.threadGone (s : State) (t : Thread) (st code progress : Nat) (va : Word) : State :=
  let s := if st = 4 ∧ code = 3 then s.updShroud (t.core / 4) fun h => { h with refused := min (h.refused + 1) (2 ^ 32 - 1) } else s
  s.threadOut t st code progress va

/-- Units marked as triggered where they run and had not been (R213). -/
def State.trigUnits (s : State) (us : List (Nat × Nat)) : State :=
  us.foldl (fun s u =>
    let isIt (w : Unit) : Bool := w.launch == u.1 && w.index == u.2 && !w.triggered
    let mark (w : Unit) : Unit := if isIt w then { w with triggered := true } else w
    let markCtx (c : Ctx) : Ctx := { c with unit := c.unit.map mark, taken := c.taken.map mark }
    let on := (List.range 128).filter fun g => (s.ctx g).unit.any isIt || (s.ctx g).taken.any isIt
    let saved := s.launches.any fun l => l.saved.any fun v => isIt v.unit || v.ctx.taken.any isIt
    if on = [] ∧ !saved then s
    else
      let s := on.foldl (fun s g => s.updCtx g markCtx) s
      let markSaved (v : Saved) : Saved := { v with unit := mark v.unit, ctx := markCtx v.ctx }
      let s : State := { s with launches := s.launches.map fun (l : Launch) => { l with saved := l.saved.map markSaved } }
      s.countTrig u.1) s

/-- HLATCH's records in turn (R214): the state, progress, what stopped it. -/
def State.hlatchRun (s : State) (k : Nat) (c : EngCmd) (w : Writer) : State × Nat × Option (Nat × Nat) :=
  let h := c.n 0 1
  let cnt (e : Nat) : Nat := Tab.get 0 (s.shroud (k / 4)).hist (h * 256 + e)
  let put (s : State) (a : Nat) (bs : List Byte) : State ⊕ (Nat × Nat) :=
    match s.engWheres k 0 ((List.range bs.length).map fun i => (a + i) % 2 ^ 64) with
    | (_, some f) => .inr f
    | (as, none) => .inl (s.homeWrite w (as.zip bs))
  let r := (List.range (c.n 2 2)).foldl (fun (a : State × Nat × Nat × Option (Nat × Nat)) e =>
    match a with
    | (_, _, _, some _) => a
    | (s, done, acc, none) =>
      let q := ceilDiv (cnt e) (c.n 4 4)
      let rec_ := c.n 8 8 + 128 * e
      if 2 ^ 24 < q then (s, done, acc, some (9, rec_))
      else
        match put s (rec_ + 16 + 4 * c.n 1 1) (natBytes 4 q) with
        | .inr f => (s, done, acc, some f)
        | .inl s' =>
          match put s' (rec_ + 8) (natBytes 8 (c.n 16 8 + acc * c.n 24 4)) with
          | .inr f => (s, done, acc, some f)
          | .inl s => (s, done + 1, acc + cnt e, none)) (s, 0, 0, none)
  match r with
  | (s, done, _, some f) => (s, done, some f)
  | (s, done, _, none) =>
    let r := if c.n 40 8 = 0 then (s, none) else
      (List.range (c.n 2 2)).foldl (fun (a : State × Option (Nat × Nat)) e =>
        match a with
        | (_, some _) => a
        | (s, none) =>
          match put s (c.n 40 8 + 4 * e) (natBytes 4 (cnt e)) with
          | .inr f => (s, some f)
          | .inl s => (s, none)) (s, none)
    match r with
    | (s, some f) => (s, done, some f)
    | (s, none) => (s.updShroud (k / 4) fun x => { x with hist := Tab.keep (fun a _ => a / 256 != h) x.hist }, done, none)

/-- An FP32 code as an ordered integer; both zeros are 0 (R215). -/
def scoreKey (b : BitVec 32) : Int := if b.getLsbD 31 then -((b.toNat % 2 ^ 31 : Nat) : Int) else b.toNat

/-- Whether pair x stands before pair y: better score, then smaller id (R215). -/
def pairBefore (largest : Bool) (x y : BitVec 32 × Word) : Bool :=
  let a := scoreKey x.1
  let b := scoreKey y.1
  if a = b then decide (x.2.toNat < y.2.toNat) else if largest then decide (b < a) else decide (a < b)

/-- A pair enters a sorted list. -/
def insertPair (largest : Bool) (x : BitVec 32 × Word) : List (BitVec 32 × Word) → List (BitVec 32 × Word)
  | [] => [x]
  | y :: r => if pairBefore largest x y then x :: y :: r else y :: insertPair largest x r

/-- A selector takes one score (R215). -/
def TopK.take1 (t : TopK) (b : BitVec 32) (id : Word) : TopK :=
  let t := { t with seen := (t.seen + 1) % 2 ^ 64 }
  if (FP32.decode b.toNat).isNan then { t with nans := (t.nans + 1) % 2 ^ 32 }
  else { t with pairs := (insertPair (t.mode == 1) (b, id) t.pairs).take t.k }

/-- A selector before its first reset (log entry 3). -/
def TopK.empty : TopK := { k := 0, mode := 0, pairs := [], nans := 0, seen := 0 }

/-- TOPK's work (R215). -/
def State.topkRun (s : State) (k : Nat) (c : EngCmd) : State :=
  let ram := (s.core k).ram
  let fl := c.n 1 1
  let t := (Tab.get none (s.shroud (k / 4)).topk (c.n 0 1)).getD TopK.empty
  let t := if fl.testBit 0 then { k := c.n 2 2, mode := field fl 1 1, pairs := [], nans := 0, seen := 0 } else t
  let t := (List.range (c.n 4 4)).foldl (fun (t : TopK) i =>
    let id := if fl.testBit 2 then Mem.readN ram (c.n 16 8 + 8 * i) 8 else c.n 16 8 + i
    t.take1 (BitVec.ofNat 32 (Mem.readN ram (c.n 8 8 + 4 * i) 4)) (BitVec.ofNat 64 id)) t
  s.updShroud (k / 4) fun x => { x with topk := Tab.set none x.topk (c.n 0 1) (some t) }

/-- TOPKR's work (R216): the result written, the instance emptied, its k and mode kept. -/
def State.topkResult (s : State) (k : Nat) (c : EngCmd) : State :=
  let t := (Tab.get none (s.shroud (k / 4)).topk (c.n 0 1)).getD TopK.empty
  let out := natBytes 4 t.pairs.length ++ natBytes 4 t.nans ++ natBytes 8 t.seen ++
    (t.pairs.map fun x => natBytes 4 x.1.toNat ++ natBytes 4 0 ++ natBytes 8 x.2.toNat).flatten
  let s := s.updCore k fun x => { x with ram := Mem.writeBytes x.ram (c.n 8 8) out }
  s.updShroud (k / 4) fun x => { x with topk := Tab.set none x.topk (c.n 0 1) (some { t with pairs := [], nans := 0, seen := 0 }) }

/-- The tree of R206 over the participants' values in rank order. -/
def rankTree (op : Nat → Nat → Nat) : Nat → List Nat → Nat
  | 0, xs => xs.headD 0
  | fuel + 1, xs =>
    if xs.length ≤ 1 then xs.headD 0
    else
      let h := 2 ^ Nat.log2 (xs.length - 1)
      op (rankTree op fuel (xs.take h)) (rankTree op fuel (xs.drop h))

/-- A collective's operation (R206). -/
def EngCmd.collOp (c : EngCmd) (a b : Nat) : Nat :=
  match c.n 0 1 with
  | 0 => (addLane c.collFmt a b).1
  | 1 => (maxLane c.collFmt a b).1
  | _ => (minLane c.collFmt a b).1

/-- The quad that the unit of a collective is on now: where it runs, or was saved from; once it has ended, that of its command (R209). -/
def State.collQuad (s : State) (t : Thread) : Nat :=
  let isIt (u : Unit) : Bool := some (u.launch, u.index) == t.cmd.by_
  match (List.range 128).find? fun g => (s.ctx g).unit.any isIt with
  | some g => g / 16
  | none =>
    match (s.launches.flatMap fun l => l.saved).find? fun v => isIt v.unit with
    | some v => v.core / 4
    | none => t.core / 4

/-- Threads of one collective round: one per work unit, of the same scope, barrier and set, oldest first (R206, R209). -/
def State.collPeers (s : State) (t : Thread) : List Thread :=
  let same (u : Thread) : Bool :=
    u.cmd.op == 6 && u.state == 1 && u.cmd.scope == t.cmd.scope && u.cmd.n 3 1 == t.cmd.n 3 1 &&
    (match t.cmd.scope with
      | 2 => u.cmd.units == t.cmd.units && s.collQuad u == s.collQuad t
      | 3 => u.core / 8 == t.core / 8 && u.p == t.p
      | _ => u.p == t.p)
  (s.threads.filter same).foldl (fun (l : List Thread) u => if l.any fun v => v.cmd.by_ == u.cmd.by_ then l else l ++ [u]) []

/-- Whether a round has all its participants (R206, R209): at QUAD the units of the gang on the quad, running or pre-empted, of which
those that have ended are no more; else as many as the count held when its commands were issued. -/
def State.collFull (s : State) (t : Thread) (ts : List Thread) : Bool :=
  if t.cmd.scope ≠ 2 then decide (t.cmd.b.toNat ≤ ts.length)
  else
    match t.cmd.units with
    | [] => true
    | lg :: _ =>
      let quad := s.collQuad t
      let on := (List.range 16).filterMap fun i => (s.ctx (16 * quad + i)).unit.filter fun u => u.launch == lg.1 && u.gang == lg.2
      (on ++ s.gangSaved ⟨lg.1, 0, lg.2, false⟩ (4 * quad) 2).all fun u => ts.any fun v => v.cmd.by_ == some (u.launch, u.index)

/-- A thread enters a list in the order of its rank (R206). -/
def insertRank (t : Thread) : List Thread → List Thread
  | [] => [t]
  | u :: r => if t.cmd.n 4 4 < u.cmd.n 4 4 then t :: u :: r else u :: insertRank t r

/-- COLL (R206): once every participant has come, all read, combine and write; a fault of a source stops all at its element, and its
gate counts it once (R364). Participants that name other operations, formats or counts are taken as the one whose thread runs (log
entry 91). -/
def State.collRun (s : State) (t : Thread) : State :=
  let ts := if t.cmd.scope = 2 then s.collPeers t else (s.collPeers t).take t.cmd.b.toNat
  if !s.collFull t ts || !(ts.any fun u => u.id == t.id) || ts.any fun u => !s.covered u.core u.cmd then s
  else
    let rank (u : Thread) : Nat := u.cmd.n 4 4
    if ts.any fun u => ts.any fun v => u.id != v.id && rank u == rank v then
      ts.foldl (fun s u => s.threadGone u 4 9 0 0) s
    else
      let w := t.cmd.collFmt.width / 8
      let count := t.cmd.n 8 8
      let byRank := ts.foldl (fun l u => insertRank u l) []
      let reads := byRank.map fun u => s.engReads u.core 0 ((List.range (count * w)).map fun i => (u.cmd.n 16 8 + i) % 2 ^ 64)
      let n := (reads.map fun r => r.1.length / w).foldl min count
      let bad := (byRank.zip reads).findSome? fun r => if r.2.1.length / w = n then r.2.2.map fun f => (r.1.id, f) else none
      let elem (bs : List Byte) (e : Nat) : Nat := bytesNat ((bs.drop (e * w)).take w)
      let out := ((List.range n).map fun e => natBytes w (rankTree t.cmd.collOp ts.length (reads.map fun r => elem r.1 e))).flatten
      ts.foldl (fun s u =>
        let d := s.engWheres u.core 0 ((List.range out.length).map fun i => (u.cmd.n 24 8 + i) % 2 ^ 64)
        let m := d.1.length / w
        let s := s.homeWrite (u.cmd.writer u.p) ((d.1.zip out).take (m * w))
        match d.2, bad with
        | some f, _ => s.threadGone u 4 f.1 m (BitVec.ofNat 64 f.2)
        | none, some (id, f) =>
          if u.id = id then s.threadGone u 4 f.1 n (BitVec.ofNat 64 f.2) else s.threadOut u 4 f.1 n (BitVec.ofNat 64 f.2)
        | none, none => s.threadGone u 2 0 count 0) s

/-- Zellen port i. -/
def State.port (s : State) (i : Nat) : Port := Tab.get Port.reset s.ports i

/-- The chip one hop from another in a dimension (R386): in its positive or its negative direction around the ring. -/
def nextChip (chip dim : Nat) (pos : Bool) : Nat :=
  let n := Config.torusSize dim
  let c := field chip (4 * dim) 4
  withField chip (4 * dim) 4 ((if pos then c + 1 else c + n - 1) % n)

/-- A link of the torus: the chip that it leaves in the positive direction of its dimension. -/
abbrev Link := Nat × Nat
def linkOf (chip dim : Nat) (pos : Bool) : Link := if pos then (chip, dim) else (nextChip chip dim false, dim)

/-- Whether a link is up: this chip's own by its ports, another's as ZELLEN_LINK_DOWN told (R386, R387). -/
def State.linkUp (s : State) (l : Link) : Bool :=
  let me := Config.chipId.toNat
  if l.1 = me then (s.port (2 * l.2)).up
  else if nextChip l.1 l.2 true = me then (s.port (2 * l.2 + 1)).up
  else !s.links.contains l

/-- The links of n hops around a ring. -/
def arc (dim : Nat) (pos : Bool) : Nat → Nat → List Link
  | 0, _ => []
  | n + 1, chip => linkOf chip dim pos :: arc dim pos n (nextChip chip dim pos)

/-- The way from a chip to another in the dimensions from `dim` on (R387): the shorter way around each ring, a tie the positive way, and
the other way where a link of it is down; none where one is down there too. -/
def State.routeFrom (s : State) (to_ : Nat) : List Nat → Nat → Option (List Link)
  | [], _ => some []
  | dim :: r, chip =>
    let n := Config.torusSize dim
    let d := (field to_ (4 * dim) 4 + n - field chip (4 * dim) 4) % n
    let a := arc dim true d chip
    let b := arc dim false ((n - d) % n) chip
    let way (l : List Link) : Option (List Link) := if l.all s.linkUp then some l else none
    let go := if 2 * d ≤ n then (way a).or (way b) else (way b).or (way a)
    go.bind fun x => (s.routeFrom to_ r (withField chip (4 * dim) 4 (field to_ (4 * dim) 4))).map fun y => x ++ y

/-- The links that traffic to a chip crosses (R387), X first, then Y, then Z; none where the chip is unreachable. -/
def State.route (s : State) (chip : Nat) : Option (List Link) := s.routeFrom chip [0, 1, 2] Config.chipId.toNat

/-- Whether a chip can be reached. -/
def State.reach (s : State) (chip : Nat) : Bool := (s.route chip).isSome

/-- A put of the same partition to the same window and traffic class that is before this one and has not been acknowledged (R337). -/
def State.putBefore (s : State) (t : Thread) (sent : Bool) : Bool :=
  s.threads.any fun u => u.cmd.op == 4 && u.p == t.p && u.cmd.imm == t.cmd.imm && u.cmd.n 1 1 == t.cmd.n 1 1 && decide (u.id < t.id) &&
    (sent || !u.sent)

/-- PUT and GET (R205): the bytes sent, or brought in; a window that is down ends the thread with code WINDOW. Puts to one window and
class go in order (R337). -/
def State.podRun (s : State) (t : Thread) : State :=
  let c := t.cmd
  let loc := c.n 8 8
  let len := c.n 24 8
  let as := (List.range len).map fun i => (loc + i) % 2 ^ 64
  match Tab.get none (s.part t.p).pod c.imm with
  | none => s.threadOut t 4 3 t.progress 0
  | some w =>
    if !w.up || (!t.sent && !s.reach w.chip) then s.threadOut t 4 3 t.progress 0
    else if t.sent || (c.op == 4 && s.putBefore t false) then s
    else if c.op = 4 then
      match s.engReads t.core (c.n 0 1) as with
      | (bs, some f) => (s.remotePut w.chip w.remoteId (c.n 16 8) bs).threadGone t 4 f.1 bs.length (BitVec.ofNat 64 f.2)
      | (bs, none) =>
        let s := s.remotePut w.chip w.remoteId (c.n 16 8) bs
        { s.updThread t.id fun t => { t with sent := true, progress := len } with outbox := s.outbox ++ [(some t.id, w.chip, bs)] }
    else
      let d := s.engWheres t.core (c.n 0 1) as
      let bs := (List.range d.1.length).map fun i => s.remoteByte w.chip w.remoteId (c.n 16 8 + i)
      let s := s.engWrite (c.writer t.p) (c.n 0 1) [t.core] (d.1.zip bs)
      match d.2 with
      | some f => s.threadGone t 4 f.1 d.1.length (BitVec.ofNat 64 f.2)
      | none => s.threadGone t 2 0 len 0

/-- PUT_ACK_RETURN (R205): the acknowledged counter rises by the length, then the object is done. -/
def State.putAck (s : State) (id : Nat) : State :=
  match s.threads.find? fun t => t.id == id with
  | none => s
  | some t =>
    if t.cmd.op ≠ 4 ∨ !t.sent ∨ s.putBefore t true then s
    else
      match Tab.get none (s.part t.p).pod t.cmd.imm with
      | none => s
      | some w =>
        if !w.up then s
        else
          let s := s.store64 (t.cmd.writer t.p) w.counter (s.load64 t.p w.counter + BitVec.ofNat 64 (t.cmd.n 24 8))
          { s.threadGone t 2 0 (t.cmd.n 24 8) 0 with outbox := s.outbox.eraseP fun o => o.1 == some t.id }

/-- Earlier selector commands of the same context to the same instance are still under way (R216). -/
def State.topkBefore (s : State) (t : Thread) : Bool :=
  (s.earlier t.id).any fun u => (u.2.op == 14 || u.2.op == 15) && u.2.sameSender t.cmd && u.1 / 4 == t.core / 4 && u.2.n 0 1 == t.cmd.n 0 1

/-- ENGINE_THREAD_COMPLETE (R195, R335): what is left of a thread's work is done and its final state written. A thread that
must wait (for its fork's publication, a peer, room, an acknowledgement, a page that stalls) is left as it is. -/
def State.threadRun (s : State) (id : Nat) : State :=
  match s.threads.find? fun t => t.id == id with
  | none => s
  | some t =>
    let c := t.cmd
    let gone (s : State) : State := { s with threads := s.threads.filter fun u => u.id != id }
    if s.threadStalls t then s
    else match c.op with
    | 1 | 2 | 3 => if t.state = 1 then s else s.threadGone t t.state t.code t.progress t.faultVa
    | 24 => if t.state = 1 then s else s.threadOut t t.state t.code t.progress t.faultVa
    | 4 | 5 => if s.covered t.core c then s.podRun t else s
    | 6 => s.collRun t
    | 7 =>
      if !s.covered t.core c then s
      else
        match s.resolve t.p c.a 8 .atomic with
        | .error e => s.threadGone t 4 (engCode e) 0 c.a
        | .ok pa => (s.homeStore (c.writer t.p) pa (natBytes 8 (s.homeN pa 8 + c.b.toNat))).threadGone t 2 0 0 0
    | 11 => if s.covered t.core c then gone (s.trigUnits c.units) else s
    | 13 =>
      match s.hlatchRun t.core c (c.writer t.p) with
      | (s, n, none) => s.threadGone t 2 0 n 0
      | (s, n, some f) => s.threadGone t 4 f.1 n (BitVec.ofNat 64 f.2)
    | 14 => if s.topkBefore t then s else (s.topkRun t.core c).threadGone t 2 0 (c.n 4 4) 0
    | 15 => if s.topkBefore t then s else (s.topkResult t.core c).threadGone t 2 0 0 0
    | 16 => if s.threads.any fun u => u.cmd.op == 16 && u.cmd.g == c.g && u.core == t.core && decide (u.id < id) then s
            else if (s.core t.core).journalUsed + c.jentry.size ≤ 524288 then gone (s.place t.core c.jentry) else s
    | _ => s

/-- QSEND_DEFERRED_DELIVER (R221): the oldest waiting row of its sender to its queue enters when the queue has room. -/
def State.qsendDeliver (s : State) (id : Nat) : State :=
  match s.threads.find? fun t => t.id == id with
  | none => s
  | some t =>
    let k := t.cmd.a.toNat / 4
    let q := t.cmd.a.toNat % 4
    let rows := Tab.get [] (s.core k).queues q
    let before := (s.earlier id).any fun u => u.2.op == 31 && u.2.sameSender t.cmd && u.2.a == t.cmd.a
    if t.cmd.op ≠ 31 ∨ 8 ≤ rows.length ∨ before then s
    else
      { s.updCore k fun x => { x with queues := Tab.set [] x.queues q (rows ++ [t.cmd.row]) } with
        threads := s.threads.filter fun u => u.id != id }

end Sys2Proof.Machine
end

