-- ==== Sys2Proof/Machine/Health.lean ====
section
/-! DEFINITION. HEALTH as a word, spares in use, a change of a core's row and column maps (R237 to R239, R359). -/

namespace Sys2Proof.Machine

/-- Spare rows and columns in use on a core: logical rows on physical rows from 256, columns and the checksum on physical
columns that are not their own (R237, R359; log entry 27). -/
def Core.spareRows (c : Core) : Nat := (c.rowMap.filter fun e => match e.2 with | some r => decide (256 ≤ r) | none => false).length
def Core.spareCols (c : Core) : Nat :=
  (c.colMap.filter fun e => match e.2 with | some r => decide (384 ≤ r) | none => false).length + (if c.ckCol = 384 then 0 else 1)

/-- HEALTH (R359). -/
def State.health (s : State) : Word :=
  let most (f : Core → Nat) (cap : Nat) : Nat := min cap ((s.cores.map fun e => f e.2).foldl max 0)
  let h := s.healthReg
  BitVec.ofNat 64 (h.replace.toNat * 2 ^ 63 + s.outCount * 2 ^ 57 + s.reefedCount * 2 ^ 51 + min 1023 s.qwayCount * 2 ^ 41 +
    most Core.spareRows 8 * 2 ^ 37 + most Core.spareCols 7 * 2 ^ 34 + min 16383 h.retired * 2 ^ 20 + min 255 h.corrected * 2 ^ 8 + min 255 h.ue)

/-- Whether maps place every logical row, column and the checksum on a physical one of its own (R237, R238), and a map as it is kept. -/
def mapsOk (rows cols : List Nat) (ck : Nat) : Bool :=
  rows.length == 256 && rows.eraseDups.length == 256 && (rows.all fun r => decide (r < 264)) &&
  cols.length == 384 && cols.eraseDups.length == 384 && !cols.contains ck && decide (ck < 392) && cols.all fun r => decide (r < 392)
def mapTab (l : List Nat) : Tab (Option Nat) := l.zipIdx.filterMap fun e => if e.1 = e.2 then none else some (e.2, some e.1)

/-- MAP_CHANGE (R238, R239): the core's contexts are pre-empted, each at a halyard stop point once its segment is closed; the maps are
written when they have left. More spares than the limits take the core out of service. -/
def State.mapChange (s : State) (k : Nat) (rows cols : List Nat) (ck : Nat) : State :=
  if !mapsOk rows cols ck then s.reef k true
  else
    let s := (s.preemptCore k).updCore k fun c => { c with mapTo := some (mapTab rows, mapTab cols, ck) }
    ((List.range 4).foldl (fun s c => s.trySave (4 * k + c)) s).mapWrite k

end Sys2Proof.Machine
end

