-- ==== Sys2Proof/Machine/SegOps.lean ====
section
/-! DEFINITION. SEGE: the checks of a protected segment, its commit, its reruns, the reefing of a core (R352 to R358). -/

namespace Sys2Proof.Machine

/-- The counts and signatures a run shows at SEGE (R355, R356): steps with SEGE's own, the control signature with SEGE's word,
the result signature, a data error. -/
def Seg.outcome (q : Seg) (ctl : Nat) : Nat × BitVec 32 × BitVec 32 × Bool :=
  (q.steps + 1, ~~~(crcBytes q.ctl (natBytes 4 ctl ++ [0])), ~~~q.res, q.dataErr)

/-- Whether the run matches the segment's table entry (R355). -/
def Seg.matches (q : Seg) (o : Nat × BitVec 32 × BitVec 32 × Bool) : Bool :=
  o.1 == q.base + q.n0 * q.loop0 + q.n1 * q.loop1 + 2 * (q.z0 + q.z1) && o.2.1 == q.signature && !o.2.2.2

/-- Whether SEGE may commit (R357). -/
def Seg.commits (q : Seg) (ctl : Nat) : Bool :=
  let o := q.outcome ctl
  if q.run = 1 then q.matches o
  else q.run == 3 && q.run2 == some o && !o.2.2.2

/-- The logs dropped, for a segment that runs again. -/
def Seg.again (q : Seg) (run : Nat) : Seg :=
  { q with run := run, stores := [], undo := [], tiles := [], deferred := [], replay := [] }

/-- A verdict made at least v (R302, R357). -/
def State.worsen (s : State) (l v : Nat) : State :=
  if s.live l then (s.updLaunch l fun x => { x with verdict := max x.verdict v }).coWrite l else s

/-- The third-run disagreement (R357, R358): the context is rewound and leaves its core with its gang, the core is reefed or
taken out of service, the launch is tainted. -/
def State.disagree (s : State) (g : Nat) : State :=
  let s := (s.rewind g).updCtx g fun c => { c with seg := none }
  match (s.ctx g).unit with
  | none => s
  | some u =>
    let s := (List.range 128).foldl (fun s h =>
      match (s.ctx h).unit with
      | some w => if w.launch = u.launch ∧ w.gang = u.gang then s.updCtx h fun c => { c with preempt := true, avoid := h / 4 == g / 4 } else s
      | none => s) s
    (s.worsen u.launch 2).reef (g / 4) ((s.core (g / 4)).health == .reefed)

/-- SEGE at stage 3: it waits for the segment's results and array entries, and for room for the deferred commands of a commit (R192);
a run that may not commit is rewound (R355, R357). -/
def segeWait (e : Env) (s : State) : Option State :=
  match (s.ctx e.g).seg with
  | none => none
  | some q =>
    if !(s.ctx e.g).regs.inSeg then none
    else if !(s.ctx e.g).quiet || (s.core e.k).halyard.any fun h => h.c == e.c then some s
    else if q.commits e.ctl then (if (s.core e.k).engq.length + q.deferred.length ≤ 32 then none else some s)
    else if s.loads.any fun l => l.g == e.g then some s
    else if q.run = 3 then some (s.disagree e.g)
    else
      let q' := { q.again (q.run + 1) with run2 := if q.run = 2 then some (q.outcome e.ctl) else none }
      some ((s.rewind e.g).updCtx e.g fun c => { c with seg := some q' })

/-- A buffered store leaves with its segment, under WT where its page has come into host bias (R382). Into a window that has gone down since, or admits it no more, its gate refuses it: it is
lost, and counted (R363, R364, R366; log entry 93). -/
def State.segStore (s : State) (g : Nat) (st : SegStore) : State :=
  if s.gatePasses (s.partOf (g / 4)) st.pa then s.coreStore g st.pa st.data (if s.onHostBias (st.pa / 128) then .wt else st.pol)
  else s.updShroud (g / 16) fun h => { h with refused := min (h.refused + 1) (2 ^ 32 - 1) }

/-- The commit (R357): stores handed to the core in issue order, logs dropped, deferred commands forked. -/
def State.commitSeg (s : State) (g : Nat) (q : Seg) : State :=
  let s := s.updCtx g fun c => { c with seg := none, regs := { c.regs with inSeg := false } }
  let s := q.stores.foldl (fun s st => s.segStore g st) s
  let s := q.deferred.foldl (fun s c => s.fork (g / 4) c) s
  if q.run = 3 then
    let s := { s with healthReg := { s.healthReg with corrected := min 255 (s.healthReg.corrected + 1) } }
    match (s.ctx g).launch with
    | some l => s.worsen l 1
    | none => s
  else s

/-- SEGE (R89, R357). -/
def segeOp : SlotOp :=
  { wait := segeWait
    issue := fun e s =>
      match (s.ctx e.g).seg with
      | none => .error (e.trap .illegalOperand)
      | some q => if e.regs.inSeg then .ok (s.commitSeg e.g q) else .error (e.trap .illegalOperand) }

end Sys2Proof.Machine
end

