-- ==== Sys2Proof/Machine/EngineOps.lean ====
section
/-! DEFINITION. The engine slot: record checks at issue, commands handed to the engines, barriers, TAKE, the KV instructions, services, time and queues (R190 to R221, R276 to R283). -/

namespace Sys2Proof.Machine

/-- A record read from the scratchpad at its own alignment (R191 step 2). -/
def Env.readRec (e : Env) (a : Word) (n : Nat) : Except Trap (List Byte) :=
  match e.pre.localCheck e.g a n n with
  | some t => .error (e.trap t a)
  | none => .ok (Mem.readBytes e.core.ram a.toNat n)

/-- A record's field limits (R191 step 3). -/
def Env.require (e : Env) (ok : Bool) : Except Trap PUnit.{1} := if ok then .ok ⟨⟩ else .error (e.trap .illegalOperand)

/-- Scratchpad ranges of a command, on each of some cores (R191 step 4): to be read, or to be written (R345). -/
def Env.ranges (e : Env) (cores : List Nat) (align : Nat) (rs : List (Nat × Nat)) (write : Bool := false) : Except Trap PUnit.{1} :=
  let bad := (cores.map fun k => rs.filterMap fun r =>
    (e.pre.localCheckOn e.g k (BitVec.ofNat 64 r.1) align r.2).map fun t => { e.trap t (BitVec.ofNat 64 r.1) with isWrite := write }).flatten
  match bad.head? with
  | some t => .error t
  | none => .ok ⟨⟩

/-- A global address of a command under R131 for each access it needs (R191 step 4). -/
def Env.global (e : Env) (va : Word) (align : Nat) : List Acc → Except Trap PUnit.{1}
  | [] => .ok ⟨⟩
  | a :: r =>
    match e.pre.resolve e.p va align a with
    | .error t => .error { e.trap t va with isWrite := a == .write, isAtomic := a == .atomic, gate := t == .window }
    | .ok _ => e.global va align r

/-- A completion object: address 0 names none (R191, R193, R199; log entry 44). -/
def Env.coArg (e : Env) (co : Nat) : Except Trap (Option Word) :=
  if co = 0 then .ok none
  else (e.global (BitVec.ofNat 64 co) 32 [.read, .write]).map fun _ => some (BitVec.ofNat 64 co)

/-- A command of this context. -/
def Env.cmd (e : Env) (op : Nat) : EngCmd :=
  { op := op, g := e.g, by_ := e.ctx.unit.map fun u => (u.launch, u.index), launch := e.ctx.launch, tag := e.pre.tagOf e.g }

/-- The writer of a store engine's work for an instruction (R340). -/
def Env.writer (e : Env) : Writer := { tag := e.pre.tagOf e.g, p := e.p }

/-- A command handed over: kept in the segment's deferral list (R197, R353), else forked (R193). -/
def Env.submit (e : Env) (s : State) (c : EngCmd) : Except Trap State :=
  match (s.ctx e.g).seg with
  | some q =>
    if 32 ≤ q.deferred.length then .error (e.trap .segOverflow)
    else .ok (s.updCtx e.g fun x => { x with seg := some { q with deferred := q.deferred ++ [c] } })
  | none => .ok (s.fork e.k c)

/-- Stage 3 of a command that starts a thread: a full engine queue (R192); a write of this core to the completion object that
is still under way (R193; log entry 28). In a segment nothing is queued. -/
def engWait (co : Env → Option Word) (e : Env) (s : State) : Option State :=
  if e.regs.inSeg then none
  else if 32 ≤ (s.core e.k).engq.length then some s
  else
    match co e with
    | none => none
    | some a =>
      match s.resolve e.p a 8 .write with
      | .error _ => none
      | .ok pa => if (List.range 16).any fun i => s.writePending e.k (pa + i) then some s else none

/-- The completion object a scratchpad record names, read for the wait of its command. -/
def recCo (sa : BitVec 6) (off n : Nat) (e : Env) : Option Word :=
  if (e.pre.localCheck e.g (e.S sa) n n).isSome then none
  else
    let co := Mem.readN e.core.ram ((e.S sa).toNat + off) 8
    if co = 0 then none else some (BitVec.ofNat 64 co)

/-- Whether column-store runs keep inside their slice (R199). -/
def colOk (a n : Nat) : Bool := decide (a < 384 * 65536) && decide (a % 65536 + n ≤ 0xF000)

/-- The field limits of a copy record (R199). -/
def EngCmd.copyOk (c : EngCmd) (ram : Tab Byte) (inPart : Nat → Bool) : Bool :=
  let ix := c.op != 1
  let src := c.n 0 1
  let dst := c.n 1 1
  let dims := c.n 2 1
  let len := c.n 24 4
  let cnt1 := c.n 28 4
  let cnt2 := c.n 32 4
  let basic := decide (src ≤ 2) && decide (dst ≤ (if ix then 2 else 3)) && decide (1 ≤ dims) && decide (dims ≤ (if ix then 1 else 3)) &&
    decide (c.n 3 1 ≤ (if ix then 0 else 1)) && decide (c.n 4 1 < 16) && decide (1 ≤ c.n 5 1) && decide (c.n 5 1 ≤ 6) &&
    decide (c.n 6 1 ≤ 1) && c.n 7 1 == 0 && decide (1 ≤ len) && decide (len ≤ (if ix then 65536 else 2 ^ 24)) &&
    decide (1 ≤ cnt1) && decide (cnt1 ≤ 2 ^ 24) && decide (1 ≤ cnt2) && decide (cnt2 ≤ 65536) && c.n 52 4 == 0
  let shape := if ix then cnt2 == 1 && decide (c.n 48 1 ≤ 1) && c.n 49 3 == 0
    else (dims != 1 || cnt1 == 1) && (decide (3 ≤ dims) || cnt2 == 1)
  let mc := c.n 4 1 == 0 || dst == 1 || dst == 2
  let codec := c.n 3 1 == 0 || (dims == 1 && src != 2 && len % 256 == 0)
  let queue := dst != 3 || (c.total % 256 == 0 && decide (c.n 16 8 < 128) && inPart (c.n 16 8 / 4))
  basic && shape && mc && codec && queue &&
  (c.runs ram).all fun r => (src != 2 || colOk r.1 len) && (dst != 2 || colOk r.2 len)

/-- The bytes that an expand of n rows from the scratchpad takes, as its encodings stand at issue (R191, R201): up to the first header
that R147 would reject (log entry 81). -/
def expandSpan (ram : Tab Byte) : Nat → Nat → Nat
  | 0, _ => 0
  | n + 1, a =>
    let l := rowEncoding ram a
    if !headerOk (Mem.read ram a) then 1
    else if !headerOk (Mem.read ram (a + l.1)) then l.1 + 1
    else ceilDiv (l.1 + l.2) 8 * 8 + expandSpan ram n (a + ceilDiv (l.1 + l.2) 8 * 8)

/-- COPY, GATH and SCAT (R199 to R203). Scratchpad ranges without a stated alignment have alignment 1 (log entry 81). -/
def copyLike (op : Nat) (sa : BitVec 6) (ch : BitVec 4) : SlotOp :=
  { reads := fun _ => [sKey sa.toNat], wait := engWait (fun e => (recCo sa 56 64 e).filter fun w => w != 0)
    issue := fun e s => do
      let r ← e.readRec (e.S sa) 64
      let c := { e.cmd op with record := r, imm := ch.toNat, scope := recN r 5 1 }
      e.require (c.copyOk e.core.ram fun k => e.pre.inPart e.p (k / 4))
      let len := c.n 24 4
      let runs := c.runs e.core.ram
      e.ranges [e.k] 1 ((if c.n 0 1 = 1 then runs.map fun x => (x.1, if c.n 3 1 = 1 then expandSpan e.core.ram (len / 256) x.1 else len) else []) ++
        (if op = 1 then [] else [(c.n 36 8, c.n 28 4 * (if c.n 48 1 = 0 then 4 else 8))]))
      e.ranges (c.targets e.k) 1 (if c.n 1 1 = 1 then runs.map fun x => (x.2, len) else []) true
      let co ← e.coArg (c.n 56 8)
      e.submit s { c with comp := co } }
def copyOp := copyLike 1
def gathOp := copyLike 2
def scatOp := copyLike 3

/-- PUT and GET (R205): the window must be a registered import that holds the range, whether or not it is up. -/
def podLike (op : Nat) (sa : BitVec 6) (win : BitVec 10) : SlotOp :=
  { reads := fun _ => [sKey sa.toNat], wait := engWait (fun e => (recCo sa 32 64 e).filter fun w => w != 0)
    issue := fun e s => do
      let r ← e.readRec (e.S sa) 64
      let c := { e.cmd op with record := r, imm := win.toNat, scope := 6 }
      e.require (decide (c.n 0 1 ≤ 1) && decide (c.n 1 1 ≤ 1) && c.n 2 6 == 0 && decide (1 ≤ c.n 24 8) && decide (c.n 24 8 ≤ 2 ^ 32) && recN r 40 24 == 0)
      match Tab.get none (e.pre.part e.p).pod win.toNat with
      | none => .error (e.trap .window)
      | some w =>
        if !w.imp ∨ w.length < c.n 16 8 + c.n 24 8 then .error (e.trap .window)
        else
          e.ranges [e.k] 1 (if c.n 0 1 = 1 then [(c.n 8 8, c.n 24 8)] else []) (op == 5)
          let co ← e.coArg (c.n 32 8)
          e.submit s { c with comp := co } }
def putOp := podLike 4
def getOp := podLike 5

/-- A barrier's place in the tables of a partition, for core k (R209): PART, POD, and DIE by compute die, which is quads 2d and 2d + 1
(R3, R324). -/
def barKey (k scope id : Nat) : Nat := if scope = 3 then 256 + 128 * (k / 8) + id else if scope = 7 then 128 + id else id

/-- The count held for a barrier of a network (R209). -/
def State.barCount (s : State) (k scope id : Nat) : Nat := Tab.get 0 (s.part (s.partOf k)).bars (barKey k scope id)

/-- The participants of a round at QUAD as it stands: the units of the context's gang on its quad, running or pre-empted (R209). -/
def State.quadCount (s : State) (g : Nat) : Nat :=
  match (s.ctx g).unit with
  | none => 0
  | some u => (s.gangOn g 2).length + (s.gangSaved u (g / 4) 2).length

/-- COLL (R206). -/
def collOp (sa : BitVec 6) : SlotOp :=
  { reads := fun _ => [sKey sa.toNat], wait := engWait (recCo sa 32 64)
    issue := fun e s => do
      let r ← e.readRec (e.S sa) 64
      let c := { e.cmd 6 with record := r, scope := recN r 2 1 }
      let n := if c.scope = 2 then e.pre.quadCount e.g else e.pre.barCount e.k c.scope (c.n 3 1)
      let fmt := c.n 1 1
      e.require (decide (c.n 0 1 ≤ 2) && (fmt == 0 || fmt == 1 || fmt == 3 || fmt == 6) && decide (2 ≤ c.scope) && decide (c.scope ≤ 4) &&
        decide (c.n 3 1 ≤ 127) && decide (c.n 4 4 < n) && decide (1 ≤ c.n 8 8) && decide (c.n 8 8 ≤ 2 ^ 28) && recN r 40 24 == 0)
      let co ← e.coArg (c.n 32 8)
      e.submit s { c with comp := co, b := BitVec.ofNat 64 n, units := match e.ctx.unit with | some u => [(u.launch, u.gang)] | none => [] } }

/-- SIGNAL (R207). -/
def signalOp (sa sb : BitVec 6) (scope : BitVec 3) : SlotOp :=
  { reads := fun _ => [sKey sa.toNat, sKey sb.toNat], wait := engWait fun _ => none
    issue := fun e s => do
      e.global (e.S sa) 8 [.atomic]
      e.submit s { e.cmd 7 with a := e.S sa, b := e.S sb, scope := scope.toNat } }

/-- LAUNCH (R210, R211, R297): the record's address is checked for reading; its release is at PART. -/
def launchOp (sa : BitVec 6) : SlotOp :=
  { reads := fun _ => [sKey sa.toNat], wait := engWait fun _ => none
    issue := fun e s => do
      e.global (e.S sa) 128 [.read]
      e.submit s { e.cmd 9 with a := e.S sa, scope := 4 } }

/-- The units a TRIG marks and its release scope (R213, R291): those of the current TAKE, of which none is left where their launch was
killed; without one the running unit. -/
def trigTargets (s : State) (c : Ctx) : List (Nat × Nat) × Nat :=
  let us := if c.acts.isNone then c.unit.toList else c.taken
  (us.map fun u => (u.launch, u.index), match c.writer.bind fun i => s.launches[i]? with | some l => l.scope | none => 4)

/-- TRIG (R213). -/
def trigOp : SlotOp :=
  { wait := engWait fun _ => none
    issue := fun e s =>
      let t := trigTargets e.pre e.ctx
      e.submit s { e.cmd 11 with units := t.1, scope := t.2 } }

/-- HIST (R214): the ids are read at issue. -/
def histOp (sa sb : BitVec 6) : SlotOp :=
  { reads := fun _ => [sKey sa.toNat, sKey sb.toNat]
    issue := fun e s => do
      let b := (e.S sb).toNat
      let n := b % 2 ^ 32
      e.require (decide (b / 2 ^ 36 = 0) && decide (n ≤ 2 ^ 20))
      if n = 0 then .ok s
      else
        e.ranges [e.k] 1 [((e.S sa).toNat, n)]
        e.submit s { e.cmd 12 with b := e.S sb, record := Mem.readBytes e.core.ram (e.S sa).toNat n } }

/-- HLATCH (R214). -/
def hlatchOp (sa : BitVec 6) : SlotOp :=
  { reads := fun _ => [sKey sa.toNat], wait := engWait (recCo sa 32 64)
    issue := fun e s => do
      let r ← e.readRec (e.S sa) 64
      let c := { e.cmd 13 with record := r }
      e.require (decide (c.n 0 1 ≤ 15) && decide (c.n 1 1 ≤ 2) && decide (1 ≤ c.n 2 2) && decide (c.n 2 2 ≤ 256) && decide (1 ≤ c.n 4 4) &&
        decide (c.n 4 4 ≤ 65536) && c.n 28 4 == 0 && recN r 48 16 == 0)
      let co ← e.coArg (c.n 32 8)
      e.submit s { c with comp := co } }

/-- TOPK (R215). -/
def topkOp (sa : BitVec 6) : SlotOp :=
  { reads := fun _ => [sKey sa.toNat], wait := engWait (recCo sa 24 64)
    issue := fun e s => do
      let r ← e.readRec (e.S sa) 64
      let c := { e.cmd 14 with record := r }
      let fl := c.n 1 1
      e.require (decide (c.n 0 1 ≤ 7) && decide (fl ≤ 7) && (!fl.testBit 0 || (decide (1 ≤ c.n 2 2) && decide (c.n 2 2 ≤ 1024))) &&
        decide (1 ≤ c.n 4 4) && decide (c.n 4 4 ≤ 2 ^ 20) && recN r 32 32 == 0)
      e.ranges [e.k] 1 ([(c.n 8 8, 4 * c.n 4 4)] ++ (if fl.testBit 2 then [(c.n 16 8, 8 * c.n 4 4)] else []))
      let co ← e.coArg (c.n 24 8)
      e.submit s { c with comp := co } }

/-- The k an instance will hold once this context's earlier commands have run (R216). -/
def State.topkK (s : State) (g inst : Nat) : Nat :=
  let me : EngCmd := { op := 15, g := g, by_ := (s.ctx g).unit.map fun u => (u.launch, u.index) }
  let mine := match (s.ctx g).seg with | some q => q.deferred | none => []
  let resets (c : EngCmd) : Bool := c.op == 14 && c.sameSender me && c.n 0 1 == inst && (c.n 1 1).testBit 0
  let forked := ((s.earlier s.nextThread).filter fun c => c.1 / 4 == g / 16 && resets c.2).foldl (fun (a : Nat × Nat) c =>
    if a.1 ≤ c.2.seq then (c.2.seq, c.2.n 2 2) else a) (0, ((Tab.get none (s.shroud (g / 16)).topk inst).getD TopK.empty).k)
  mine.foldl (fun k c => if resets c then c.n 2 2 else k) forked.2

/-- TOPKR (R216): the result range is that of the k in force. -/
def topkrOp (sa : BitVec 6) : SlotOp :=
  { reads := fun _ => [sKey sa.toNat], wait := engWait (recCo sa 16 64)
    issue := fun e s => do
      let r ← e.readRec (e.S sa) 64
      let c := { e.cmd 15 with record := r }
      e.require (decide (c.n 0 1 ≤ 7) && c.n 1 7 == 0 && recN r 24 40 == 0)
      e.ranges [e.k] 16 [(c.n 8 8, 16 + 16 * e.pre.topkK e.g (c.n 0 1))] true
      let co ← e.coArg (c.n 16 8)
      e.submit s { c with comp := co } }

/-- A work unit's key in the barrier tables. -/
def Unit.key (u : Unit) : Nat := u.launch * 2 ^ 40 + u.index

/-- A unit is released from its barrier, wherever it is (R209): running, or saved by a pre-emption; with a trap for a cancelled
round (R209, R343). A unit that a STEP trap took from its blocked BAR is in its handler, and only its arrival goes. -/
def State.releaseUnit (s : State) (key : Nat) (cancelled : Bool) : State :=
  let free (c : Ctx) : Ctx :=
    if !cancelled then { c with released := true }
    else if c.regs.inHandler && c.regs.blocked then { c with arrived := none }
    else { c with arrived := none, pend := some { code := .soft, slot := 255, code8 := 0xB0, pc := c.regs.pc, epc := c.regs.pc } }
  let isIt (u : Unit) : Bool := u.key == key
  let s := (List.range 128).foldl (fun s g => if (s.ctx g).unit.any isIt then s.updCtx g free else s) s
  let fix (v : Saved) : Saved := if isIt v.unit then { v with ctx := free v.ctx } else v
  { s with launches := s.launches.map fun (l : Launch) => { l with saved := l.saved.map fix } }

/-- The waiting units of a barrier in a network, and their replacement (R209). -/
def State.barWaiters (s : State) (k scope id : Nat) : List Nat :=
  Tab.get [] (s.part (s.partOf k)).barWait (barKey k scope id)
def State.setBarWaiters (s : State) (k scope id : Nat) (l : List Nat) : State :=
  s.updPart (s.partOf k) fun p => { p with barWait := Tab.set [] p.barWait (barKey k scope id) l }

/-- An arrival at another barrier that a context has left unfinished is withdrawn. -/
def State.withdraw (s : State) (g : Nat) : State :=
  match (s.ctx g).unit, (s.ctx g).arrived with
  | some u, some (scope, id) =>
    let s := if scope ≤ 2 then s else s.setBarWaiters (g / 4) scope id ((s.barWaiters (g / 4) scope id).filter fun key => key != u.key)
    s.updCtx g fun c => { c with arrived := none, released := false }
  | _, _ => s

/-- An arrival at a barrier, and the round's completion by the last (R208, R209). -/
def State.arrive (s : State) (g scope id : Nat) : State :=
  let s := (s.withdraw g).updCtx g fun c => { c with arrived := some (scope, id), released := false }
  if scope ≤ 2 then s.gangRound g scope id
  else
    match (s.ctx g).unit with
    | none => s
    | some u =>
      let l := s.barWaiters (g / 4) scope id ++ [u.key]
      if l.length < s.barCount (g / 4) scope id then s.setBarWaiters (g / 4) scope id l
      else l.foldl (fun s key => s.releaseUnit key false) (s.setBarWaiters (g / 4) scope id [])

/-- BAR (R208): the release, the arrival, the wait for the round, then the acquire. A bundle that a STEP trap or a pre-emption took
from its wait finds its arrival standing (R209). -/
def barOp (scope : BitVec 3) (id : BitVec 7) : SlotOp :=
  let n := scope.toNat
  let order := if n = 7 then 6 else n
  { fence := true
    wait := fun e s =>
      if e.regs.inSeg || (decide (3 ≤ n) && s.barCount e.k n id.toNat == 0) then none
      else if (s.ctx e.g).arrived == some (n, id.toNat) then (if (s.ctx e.g).released then acquireWait s e.g order else some s)
      else
        match s.releaseWait e.k order with
        | some s => some s
        | none => some (s.arrive e.g n id.toNat)
    issue := fun e s =>
      if e.regs.inSeg || (decide (3 ≤ n) && e.pre.barCount e.k n id.toNat == 0) then .error (e.trap .illegalOperand)
      else .ok ((s.acquire e.k order).updCtx e.g fun c => { c with arrived := none, released := false }) }

/-- The aged key of an entry (R306). -/
def State.agedKey (s : State) (l : Launch) (since : Word) : Nat :=
  let limit := field (s.part l.p).spnCtl.toNat 32 16
  let w := (s.timebase - since).toNat / 1000
  (if limit = 0 then field l.key 24 8 else field l.key 24 8 - w / limit) * 2 ^ 24 + field l.key 0 24

/-- Whether an entry came to a slice before another of it (R306, R314). -/
def State.entered (s : State) (j i : Nat) : Bool :=
  match s.launches[j]?, s.launches[i]? with
  | some a, some b => a.slice == b.slice && (decide (a.since.toNat < b.since.toNat) || (a.since == b.since && decide (j < i)))
  | _, _ => false

/-- The take launch a TAKE of core k is served from: the smallest aged key of those that admit the core, the first inserted
among equals (R212, R306, R307). -/
def State.takeLaunch (s : State) (k : Nat) : Option Nat :=
  let ok (l : Launch) : Bool :=
    l.take && l.p == s.partOf k && l.coreMask.testBit k && (l.stage == .eligible || l.stage == .running) && decide (l.next < l.total)
  (List.range s.launches.length).foldl (fun (best : Option Nat) i =>
    match s.launches[i]? with
    | none => best
    | some l =>
      if !ok l then best
      else
        match best.bind fun b => s.launches[b]? with
        | none => some i
        | some m =>
          let a := s.agedKey l l.since
          let b := s.agedKey m m.since
          if a < b ∨ (a = b ∧ s.entered i (best.getD i)) then some i else best) none

/-- wu.x to wu.param of a unit (R73, R210). -/
def State.wuOf (l : Launch) (index : Nat) : List (Nat × Word) :=
  [index % l.nx, index / l.nx % l.ny, index / (l.nx * l.ny), l.nx, l.ny, l.nz, l.id, l.param].zipIdx.map fun e =>
    (e.2 + 1, BitVec.ofNat 64 e.1)

/-- A result that lands under R198, with what lands beside it. -/
def Env.result (e : Env) (s : State) (d : BitVec 6) (v : Word) (also wu : List (Nat × Word)) : State :=
  let s := also.foldl (fun s x => s.updCtx e.g fun c => c.setBusy x.1 s.nextReq) s
  s.addLoad { id := 0, g := e.g, dest := sKey d.toNat, va := 0, pa := 0, size := 8, known := [], asked := 0, answer := some v, also := also, wu := wu }

/-- TAKE (R212). -/
def takeOp (sa sb : BitVec 6) (max : BitVec 10) : SlotOp :=
  { fence := true, writes := fun _ => [sKey sa.toNat, sKey sb.toNat]
    wait := fun e s =>
      if e.regs.inSeg then none
      else
        match (s.ctx e.g).taken with
        | u :: r =>
          let scope := match s.launches[u.launch]? with | some l => l.scope | none => 4
          match s.releaseWait e.k scope with
          | some s => some s
          | none => some ((u :: r).foldl (fun s t => s.unitDone t) (s.updCtx e.g fun c => { c with taken := [] }))
        | [] => if (s.takeLaunch e.k).isSome then none else some s
    issue := fun e s =>
      if e.regs.inSeg then .error (e.trap .illegalOperand)
      else
        match s.takeLaunch e.k with
        | none => .ok s
        | some i =>
          match s.launches[i]? with
          | none => .ok s
          | some l =>
            let n := min max.toNat (l.total - l.next)
            let us : List Unit := (List.range n).map fun j => ⟨i, l.next + j, 0, false⟩
            let s := (s.updLaunch i fun l => { l with next := l.next + n, stage := .running }).coWrite i
            let s := s.updCtx e.g fun c => { c with taken := us, acts := some i }
            .ok (e.result s sa (BitVec.ofNat 64 l.next) [(sKey sb.toNat, BitVec.ofNat 64 (l.key * 2 ^ 32 + n))] (State.wuOf l l.next)) }

/-- A handle resolved at stage 3 (R217). -/
def Env.handle (e : Env) (h : Word) : Except Trap (Nat × Store × Nat) :=
  if h.toNat / 2 ^ 32 ≠ 0 then .error (e.trap .illegalOperand)
  else
    match e.pre.handle e.p h.toNat with
    | none => .error (e.kvTrap 1 h)
    | some r => .ok r

/-- The trap of a KV instruction that cannot read a block whole: PAGE, or UE with the poisoned line (R341, R343; log entry 95). -/
def Env.meets (e : Env) (x : Nat × Nat) : Trap := e.trap (if x.1 = 1 then .page else .ue) (BitVec.ofNat 64 x.2)

/-- No KV instruction but KVAPP and KVPF stands in a segment (R197). -/
def Env.outOfSeg (e : Env) : Except Trap PUnit.{1} := e.require (!e.regs.inSeg)

/-- Bytes an append entry takes in the journal of a store (R276), and those of its K or V. -/
def Store.runBytes (t : Store) : Nat := t.H * t.D * (if t.nfmt = .bf16 then 2 else 1)
def Store.entrySize (t : Store) : Nat := ceilDiv (32 + 2 * t.runBytes) 128 * 128

/-- KVAPP (R217, R276): its entry is placed, or kept for SEGE. -/
def kvappOp (sa sb : BitVec 6) : SlotOp :=
  { reads := fun _ => [sKey sa.toNat, sKey sb.toNat], fenceIf := true
    wait := fun e s =>
      if e.regs.inSeg then none
      else
        match s.handle e.p (e.S sa).toNat with
        | none => none
        | some (_, t, _) => if 524288 < (s.core e.k).journalUsed + t.entrySize || s.appsWaiting e.g then some s else none
    issue := fun e s => do
      let (_, t, slot) ← e.handle (e.S sa)
      let r ← e.readRec (e.S sb) 32
      let fl := recN r 24 1
      let bare := fl.testBit 1 || fl.testBit 2
      let noData := recN r 0 1 == 0 && recN r 8 8 == 0 && recN r 16 8 == 0
      e.require (recN r 1 3 == 0 && recN r 25 7 == 0 && decide (fl ≤ 7) && !(fl.testBit 1 && fl.testBit 2) && !(bare && (fl.testBit 0 || !noData)))
      if t.L ≤ recN r 0 1 ∨ e.pre.seqN e.p t slot 36 4 * t.T ≤ recN r 4 4 then .error (e.kvTrap 2 (e.S sa))
      else
        e.ranges [e.k] 1 (if bare then [] else [(recN r 8 8, t.runBytes), (recN r 16 8, t.runBytes)])
        let data := if bare then [] else Mem.readBytes e.core.ram (recN r 8 8) t.runBytes ++ Mem.readBytes e.core.ram (recN r 16 8) t.runBytes
        e.submit s { e.cmd 16 with a := e.S sa, imm := t.entrySize, record := r ++ data } }

/-- KVSYNC (R217, R278): every entry of the context filed or dropped, then the release. -/
def kvsyncOp (scope : BitVec 3) : SlotOp :=
  { wait := fun e s =>
      if e.regs.inSeg then none
      else if (s.core e.k).journal.any fun j => j.g == e.g then some s
      else if s.appsWaiting e.g then some s
      else if (s.ctx e.g).dropped.isSome then none
      else s.releaseWait e.k scope.toNat
    issue := fun e s => do
      e.outOfSeg
      match e.ctx.dropped with
      | some h => .error { e.kvTrap 4 (BitVec.ofNat 64 h) with told := true }
      | none => .ok s }

/-- KVFORK (R217, R265, R266): the source's handle, or the root's, which names an empty sequence. -/
def kvforkOp (sa sb : BitVec 6) : SlotOp :=
  { reads := fun _ => [sKey sb.toNat], writes := fun _ => [sKey sa.toNat], fenceIf := true
    issue := fun e s => do
      e.outOfSeg
      let h := (e.S sb).toNat
      if h / 2 ^ 32 ≠ 0 then .error (e.trap .illegalOperand)
      else
        match e.pre.storeOf e.p (field h 26 6), field h 0 26 with
        | some t, 0 =>
          let r := s.kvFork e.writer (field h 26 6) t none
          .ok (e.result r.1 sa (BitVec.ofNat 64 r.2) [] [])
        | _, _ =>
          let (id, t, slot) ← e.handle (e.S sb)
          let r := s.kvFork e.writer id t (some slot)
          .ok (e.result r.1 sa (BitVec.ofNat 64 r.2) [] []) }

/-- A KV instruction on a handle in s(a). -/
def kvLike (sa : BitVec 6) (more : List (BitVec 6)) (act : Env → State → Nat → Store → Nat → Except Trap State) : SlotOp :=
  { reads := fun _ => (sa :: more).map fun r => sKey r.toNat, fenceIf := true
    issue := fun e s => do
      e.outOfSeg
      let (id, t, slot) ← e.handle (e.S sa)
      act e s id t slot }

/-- KVFREE (R265). -/
def kvfreeOp (sa : BitVec 6) : SlotOp := kvLike sa [] fun e s id t slot => .ok (s.kvFree e.writer id t slot)

/-- KVTRIM (R283). -/
def kvtrimOp (sa sb : BitVec 6) : SlotOp := kvLike sa [sb] fun e s id t slot =>
  if e.pre.seqN e.p t slot 8 4 < (e.S sb).toNat then .error (e.kvTrap 2 (e.S sa)) else .ok (s.kvTrim e.writer id t slot (e.S sb).toNat)

/-- KVCMPT (R283). -/
def kvcmptOp (sa : BitVec 6) : SlotOp := kvLike sa [] fun e s id t slot =>
  match s.compactTrouble e.p t slot, s.kvCompact e.writer id t slot e.ctx.launch with
  | some x, _ => .error (e.meets x)
  | none, none => .error (e.kvTrap 4 (e.S sa))
  | none, some s => .ok s

/-- KVDEM (R217, R257, R281). -/
def kvdemOp (sa sb : BitVec 6) (mx : Bool) : SlotOp := kvLike sa [sb] fun e s id t slot =>
  if e.pre.seqN e.p t slot 12 4 ≤ (e.S sb).toNat then .error (e.kvTrap 2 (e.S sa))
  else
    let fmt := if mx then 2 else 1
    match (s.demoteOf e.p t slot (e.S sb).toNat fmt).bind (s.blkTrouble e.p t), s.kvDemote e.writer id t slot (e.S sb).toNat fmt with
    | some x, _ => .error (e.meets x)
    | none, none => .error (e.kvTrap 4 (e.S sa))
    | none, some s => .ok s

/-- KVPF (R217): a promote request for the range's pages. It ignores the range's bits [49:48], which R180 checks for ATTN alone (log
entry 92). -/
def kvpfOp (sa sb : BitVec 6) : SlotOp :=
  { reads := fun _ => [sKey sa.toNat, sKey sb.toNat], fenceIf := true
    issue := fun e s => do
      let _ ← e.handle (e.S sa)
      e.submit s { e.cmd 22 with a := e.S sa, b := e.S sb } }

/-- KVLEND (R217, R282): the checks of issue; the lend runs as a thread. -/
def kvlendOp (sa : BitVec 6) : SlotOp :=
  { reads := fun _ => [sKey sa.toNat], fenceIf := true, wait := engWait (recCo sa 16 32)
    issue := fun e s => do
      e.outOfSeg
      let r ← e.readRec (e.S sa) 32
      e.require (recN r 12 4 == 0 && recN r 24 8 == 0)
      let h := BitVec.ofNat 64 (recN r 0 4)
      let (_, t, slot) ← e.handle h
      if e.pre.seqN e.p t slot 12 4 ≤ recN r 4 4 then .error (e.kvTrap 2 h)
      else
        match (Tab.get none (e.pre.part e.p).pod (recN r 8 2)).filter fun w => w.imp with
        | none => .error (e.trap .window)
        | some w =>
          e.require (w.chip == recN r 10 2)
          let co ← e.coArg (recN r 16 8)
          e.submit s { e.cmd 24 with a := h, record := r, comp := co } }

/-- A reservation (R279): the state after a KVRSV that succeeds, else none. -/
def State.reserve (s : State) (p id : Nat) (t : Store) (l : Option Nat) (n : Nat) : Option State :=
  match l with
  | none => none
  | some l =>
    let admissible := t.top 0 - t.reserved
    if admissible < n + t.n 20 4 then none
    else if t.rsv.any fun r => r.1 == l then
      some (s.updStore p id fun t => { t with rsv := t.rsv.map fun r => if r.1 = l then (l, r.2 + n) else r })
    else if 128 ≤ t.rsv.length then none
    else some (s.updStore p id fun t => { t with rsv := t.rsv ++ [(l, n)] })

/-- KVRSV (R217, R279). -/
def kvrsvOp (sa : BitVec 6) (pair : BitVec 3) : SlotOp :=
  { reads := fun _ => [sKey sa.toNat], fence := true
    issue := fun e s => do
      e.outOfSeg
      let v := (e.S sa).toNat
      e.require (decide (v / 2 ^ 38 = 0))
      let id := field v 32 6
      match e.pre.storeOf e.p id with
      | none => .error (e.kvTrap 1 (e.S sa))
      | some t =>
        let n := v % 2 ^ 32
        if n = 0 then .ok (e.flyPair s 2 pair true)
        else
          match s.reserve e.p id t e.ctx.launch n with
          | some s => .ok (e.flyPair s 2 pair true)
          | none => .ok (e.flyPair s 2 pair false) }

/-- KVQRY (R217). -/
def kvqryOp (sa sb : BitVec 6) (item : BitVec 3) : SlotOp :=
  { reads := fun _ => [sKey sb.toNat], writes := fun _ => [sKey sa.toNat], fenceIf := true
    issue := fun e s => do
      e.outOfSeg
      let (_, t, slot) ← e.handle (e.S sb)
      let q := e.pre.seqN e.p t slot
      let v := match item.toNat with
        | 0 => q 4 4
        | 1 => q 8 4
        | 2 => q 12 4
        | 3 => field (q 0 1) 0 6
        | 4 => q 2 1
        | 5 => q 32 4
        | 6 => t.top 0
        | _ => t.n 20 4
      .ok (e.result s sa (BitVec.ofNat 64 v) [] []) }

/-- TIME (R219). -/
def timeOp (sa : BitVec 6) : SlotOp :=
  { writes := fun _ => [sKey sa.toNat], issue := fun e s => do e.outOfSeg; .ok (e.flyS s 1 sa e.pre.timebase) }

/-- A performance counter (R219). -/
def Env.counter (e : Env) (n : Nat) : Word :=
  match n with
  | 0 => e.ctx.perfSteps
  | 1 => e.ctx.perfIssue
  | 2 => e.core.perfFreeze
  | 3 => e.ctx.perfStall
  | 4 => e.core.perfSwitch
  | 5 => e.core.perfSlip
  | 6 => e.ctx.perfEng
  | 7 => e.core.perfCopy
  | _ => 0

/-- PERF (R219). -/
def perfOp (sa : BitVec 6) (ctr : BitVec 8) : SlotOp :=
  { writes := fun _ => [sKey sa.toNat], issue := fun e s => do e.outOfSeg; .ok (e.flyS s 1 sa (e.counter ctr.toNat)) }

/-- A service of the shroud controller (R220): its answer lands in s(a). -/
def syscLike (sa : BitVec 6) (svc : Env → State → Word → State × Word) : SlotOp :=
  { reads := fun _ => [sKey sa.toNat], writes := fun _ => [sKey sa.toNat]
    issue := fun e s => do
      e.outOfSeg
      let r := svc e s (e.S sa)
      .ok (e.result r.1 sa r.2 [] []) }
def allOnes64 : Word := 0xFFFFFFFFFFFFFFFF

/-- SYSC 0x000 and 0x001 (R220): whatever argument s(a) holds (log entry 92). -/
def syscVersionOp (sa : BitVec 6) := syscLike sa fun _ s _ => (s, Config.firmwareVersion s.fwVersion)
def syscHealthOp (sa : BitVec 6) := syscLike sa fun _ s _ => (s, s.health)
def syscUnknownServiceOp (sa : BitVec 6) (_svc : BitVec 10) := syscLike sa fun _ s _ => (s, allOnes64)

/-- Whether a barrier argument's fields stand (R220): scope 3, 4 or 7, id up to 127, nothing beside. -/
def barArgOk (v : Nat) (count : Bool) : Bool :=
  let sc := field v 56 8
  (sc == 3 || sc == 4 || sc == 7) && decide (field v 48 8 ≤ 127) && field v 32 16 == 0 && (count || field v 0 32 == 0)

/-- SYSC 0x010 (R220). A barrier is in use while arrivals wait at it (log entry 86). -/
def syscBarrierSetupOp (sa : BitVec 6) := syscLike sa fun e s v =>
  let sc := field v.toNat 56 8
  let id := field v.toNat 48 8
  if !barArgOk v.toNat true || s.barWaiters e.k sc id != [] then (s, allOnes64)
  else
    let n := field v.toNat 0 32
    (s.updPart e.p fun p => { p with bars := Tab.set 0 p.bars (barKey e.k sc id) n }, 0)

/-- SYSC 0x011 (R209, R220): the waiters leave with SOFT 0xB0. -/
def syscBarrierCancelOp (sa : BitVec 6) := syscLike sa fun e s v =>
  let sc := field v.toNat 56 8
  let id := field v.toNat 48 8
  if !barArgOk v.toNat false then (s, allOnes64)
  else ((s.barWaiters e.k sc id).foldl (fun s key => s.releaseUnit key true) (s.setBarWaiters e.k sc id []), 0)

/-- The launch held failed whose completion object an argument names (R220, R301). -/
def State.heldFailed (s : State) (p : Nat) (co : Word) : Option Nat :=
  s.launches.findIdx? fun l => l.p == p && l.stage == .held && l.failed.isSome && l.co == co

/-- SYSC 0x020 (R294, R301): the dependence that failed counts as satisfied. It ended refused, faulted or tainted, and so taints the
launch's verdict (R302). -/
def syscReleaseHeldOp (sa : BitVec 6) := syscLike sa fun e s v =>
  match (if (s.part e.p).privilege then s.heldFailed e.p v else none) with
  | none => (s, allOnes64)
  | some i =>
    (s.updLaunch i fun l => { l with failed := none, met := l.met ++ l.failed.toList, owedBad := true }, 0)

/-- SYSC 0x021 (R301): the launch ends faulted, code killed, verdict tainted. -/
def syscCancelHeldOp (sa : BitVec 6) := syscLike sa fun e s v =>
  match (if (s.part e.p).privilege then s.heldFailed e.p v else none) with
  | none => (s, allOnes64)
  | some i => ((s.updLaunch i fun l => { l with owed := [] }).endLaunch i 11 2 { code := 11, source := 2 }, 0)

/-- A pod window as its record describes it (R204). -/
def podOf (r : List Byte) : PodWindow :=
  { imp := recN r 0 1 == 1, rights := recN r 1 1, chip := recN r 2 2, remoteId := recN r 4 2, base := BitVec.ofNat 64 (recN r 8 8)
    length := recN r 16 8, counter := BitVec.ofNat 64 (recN r 24 8), tclass := recN r 32 1, up := true }

/-- The field limits of a window record (R204). -/
def podRecOk (r : List Byte) : Bool :=
  recN r 6 2 == 0 && decide (recN r 32 1 ≤ 1) && recN r 33 31 == 0 &&
  (match recN r 0 1 with
    | 0 => decide (recN r 1 1 ≤ 3) && recN r 4 2 == 0 && recN r 8 8 % 65536 == 0 && recN r 16 8 % 65536 == 0 && recN r 16 8 != 0
    | 1 => recN r 1 1 == 0 && recN r 8 8 == 0
    | _ => false)

/-- WINREG (R204): a free id, which the manual does not fix further, or all ones when none is free or the controller refuses
(log entry 29). -/
def winregOp (sa sb : BitVec 6) : SlotOp :=
  { reads := fun _ => [sKey sa.toNat], writes := fun _ => [sKey sb.toNat]
    issue := fun e s => do
      e.outOfSeg
      let r ← e.readRec (e.S sa) 64
      e.require (podRecOk r)
      e.global (BitVec.ofNat 64 (recN r 24 8)) 8 [.read, .write, .atomic]
      let ids := (List.range 1024).filter fun i => (Tab.get none (s.part e.p).pod i).isNone
      let n := s.freeCtr
      let s := s.tick
      if ids = [] ∨ Config.freeBool n then .ok (e.result s sb allOnes64 [] [])
      else
        let id := ids.getD ((Config.freeWord n).toNat % ids.length) 0
        .ok (e.result (s.updPart e.p fun x => { x with pod := Tab.set none x.pod id (some (podOf r)) }) sb (BitVec.ofNat 64 id) [] []) }

/-- Whether a queue is a target for this context's rows (R221, R358). -/
def Env.queueOk (e : Env) (k : Nat) : Bool := e.pre.inPart e.p (k / 4) && (e.pre.core k).health != .out

/-- Deferred rows of a sender to a queue that still wait (R221). -/
def State.rowsWaiting (s : State) (g : Nat) (a : Word) : Bool :=
  let me : EngCmd := { op := 31, g := g, by_ := (s.ctx g).unit.map fun u => (u.launch, u.index) }
  (s.earlier s.nextThread).any fun c => c.2.op == 31 && c.2.sameSender me && c.2.a == a

/-- QSEND (R221). -/
def qsendOp (sa sb : BitVec 6) : SlotOp :=
  { reads := fun _ => [sKey sa.toNat, sKey sb.toNat]
    wait := fun e s =>
      let a := (e.S sa).toNat
      if e.regs.inSeg || decide (128 ≤ a) || !e.queueOk (a / 4) || (s.localCheck e.g (e.S sb) 256 256).isSome then none
      else if 8 ≤ (Tab.get [] (s.core (a / 4)).queues (a % 4)).length || s.rowsWaiting e.g (e.S sa) then some s
      else none
    issue := fun e s => do
      let a := (e.S sa).toNat
      e.require (decide (a < 128))
      if !e.queueOk (a / 4) then .error (e.trap .access)
      else
        e.ranges [e.k] 256 [((e.S sb).toNat, 256)]
        let row := Mem.readRow e.core.ram (e.S sb).toNat
        match (s.ctx e.g).seg with
        | some _ => e.submit s { e.cmd 31 with a := e.S sa, row := row }
        | none =>
          .ok (s.updCore (a / 4) fun x => { x with queues := Tab.set [] x.queues (a % 4) (Tab.get [] x.queues (a % 4) ++ [row]) }) }

end Sys2Proof.Machine
end

