-- ==== Sys2Proof/Machine/ScalarOps.lean ====
section
/-! DEFINITION. The scalar slot: what each operation reads, writes and computes (R70 to R76, R92 to R101). -/

namespace Sys2Proof.Machine

/-- An operation on two scalars with a result in a third (R92). -/
def sca3 (lat : Nat) (f : Word → Word → Word) (d a b : BitVec 6) : SlotOp :=
  { reads := fun _ => [sKey a.toNat, sKey b.toNat], writes := fun _ => [sKey d.toNat]
    issue := fun e s => .ok (e.flyS s lat d (f (e.S a) (e.S b))) }

/-- An operation on one scalar with a result in another (R92, R93). -/
def sca2 (lat : Nat) (f : Word → Word) (d a : BitVec 6) : SlotOp :=
  { reads := fun _ => [sKey a.toNat], writes := fun _ => [sKey d.toNat]
    issue := fun e s => .ok (e.flyS s lat d (f (e.S a))) }

/-- An FP32 operation on two scalars, its flags landing with its result (R100). -/
def scaF (f : Nat → Nat → Nat × Flags) (d a b : BitVec 6) : SlotOp :=
  { reads := fun _ => [sKey a.toNat, sKey b.toNat], writes := fun _ => [sKey d.toNat]
    issue := fun e s =>
      let r := f (lo32 (e.S a)) (lo32 (e.S b))
      .ok (e.flyS s 4 d (BitVec.ofNat 64 r.1) r.2) }

/-- A compare into a predicate pair, two steps later (R95). -/
def scaCmp (pair : BitVec 3) (regs : List (BitVec 6)) (f : Env → Bool) : SlotOp :=
  { reads := fun _ => regs.map fun r => sKey r.toNat, issue := fun e s => .ok (e.flyPair s 2 pair (f e)) }

/-- MULH of R92. -/
def mulh (a b : Word) : Word := BitVec.ofInt 64 ((a.toInt * b.toInt) / 2 ^ 64)
/-- MULHN of R92. -/
def mulhn (a b : Word) : Word := BitVec.ofNat 64 ((a.toNat * b.toNat) / 2 ^ 64)
/-- Leading zeros (R92): 64 for zero. -/
def clz (a : Word) : Word := BitVec.ofNat 64 (if a = 0 then 64 else 63 - Nat.log2 a.toNat)
/-- One bits (R92). -/
def popc (a : Word) : Word := BitVec.ofNat 64 ((List.range 64).filter fun i => a.getLsbD i).length
/-- Shift counts use b[5:0] (R92). -/
def sh6 (b : Word) : Nat := b.toNat % 64
/-- The signed immediate of ADDI (R93). -/
def imm10 (i : BitVec 10) : Word := i.signExtend 64

def addOp := sca3 1 fun a b => a + b
def subOp := sca3 1 fun a b => a - b
def mulOp := sca3 3 fun a b => a * b
def mulhOp := sca3 3 mulh
def mulhnOp := sca3 3 mulhn
def divOp := sca3 16 fun a b => BitVec.ofNat 64 (divS 64 a.toNat b.toNat)
def divnOp := sca3 16 fun a b => BitVec.ofNat 64 (divN 64 a.toNat b.toNat)
def remOp := sca3 16 fun a b => BitVec.ofNat 64 (remS 64 a.toNat b.toNat)
def remnOp := sca3 16 fun a b => BitVec.ofNat 64 (remN a.toNat b.toNat)
def andOp := sca3 1 fun a b => a &&& b
def orOp := sca3 1 fun a b => a ||| b
def xorOp := sca3 1 fun a b => a ^^^ b
def andnOp := sca3 1 fun a b => a &&& ~~~b
def shlOp := sca3 1 fun a b => a <<< sh6 b
def shrOp := sca3 1 fun a b => a >>> sh6 b
def sraOp := sca3 1 fun a b => a.sshiftRight (sh6 b)
def minOp := sca3 1 fun a b => if b.slt a then b else a
def maxOp := sca3 1 fun a b => if a.slt b then b else a
def minnOp := sca3 1 fun a b => if b.ult a then b else a
def maxnOp := sca3 1 fun a b => if a.ult b then b else a
def clzOp := sca2 1 clz
def popcOp := sca2 1 popc
def addiOp (d a : BitVec 6) (i : BitVec 10) := sca2 1 (fun v => v + imm10 i) d a
def andiOp (d a : BitVec 6) (i : BitVec 10) := sca2 1 (fun v => v &&& i.setWidth 64) d a
def oriOp (d a : BitVec 6) (i : BitVec 10) := sca2 1 (fun v => v ||| i.setWidth 64) d a
def xoriOp (d a : BitVec 6) (i : BitVec 10) := sca2 1 (fun v => v ^^^ i.setWidth 64) d a
def shliOp (d a n : BitVec 6) := sca2 1 (fun v => v <<< n.toNat) d a
def shriOp (d a n : BitVec 6) := sca2 1 (fun v => v >>> n.toNat) d a
def sraiOp (d a n : BitVec 6) := sca2 1 (fun v => v.sshiftRight n.toNat) d a
def addsOp (d a b : BitVec 6) (k : BitVec 4) := sca3 1 (fun x y => x + y <<< k.toNat) d a b

/-- SEL (R93): the predicate is read at issue. -/
def selOp (d a b : BitVec 6) (k : BitVec 4) : SlotOp :=
  { reads := fun _ => [sKey a.toNat, sKey b.toNat], writes := fun _ => [sKey d.toNat]
    issue := fun e s => .ok (e.flyS s 1 d (if e.regs.getP k.toNat then e.S a else e.S b)) }

/-- LI and LIS (R94). -/
def liOp (d : BitVec 6) (imm : BitVec 16) : SlotOp :=
  { writes := fun _ => [sKey d.toNat], issue := fun e s => .ok (e.flyS s 1 d (imm.signExtend 64)) }
def lisOp (d : BitVec 6) (imm : BitVec 16) := sca2 1 (fun v => v <<< 16 ||| imm.setWidth 64) d d

def cmpOp (pair : BitVec 3) (c : Cond) (a b : BitVec 6) := scaCmp pair [a, b] fun e => condInt c (e.S a) (e.S b)
/-- The immediate of CMPI is zero-extended under the natural conditions, else sign-extended (R25). -/
def imm9 (c : Cond) (i : BitVec 9) : Word :=
  match c with
  | .eq | .ne | .lt | .ge | .le | .gt | .bits | .nbits | .un | .ord => i.signExtend 64
  | .ltn | .gen | .len | .gtn => i.setWidth 64
def cmpiOp (pair : BitVec 3) (c : Cond) (a : BitVec 6) (i : BitVec 9) := scaCmp pair [a] fun e => condInt c (e.S a) (imm9 c i)
def fcmpOp (pair : BitVec 3) (c : Cond) (a b : BitVec 6) :=
  scaCmp pair [a, b] fun e => condFloat c (FP32.decode (lo32 (e.S a))) (FP32.decode (lo32 (e.S b)))
def pandOp (pair : BitVec 3) (x y : BitVec 4) := scaCmp pair [] fun e => e.regs.getP x.toNat && e.regs.getP y.toNat
def porOp (pair : BitVec 3) (x y : BitVec 4) := scaCmp pair [] fun e => e.regs.getP x.toNat || e.regs.getP y.toNat
def pxorOp (pair : BitVec 3) (x y : BitVec 4) := scaCmp pair [] fun e => e.regs.getP x.toNat != e.regs.getP y.toNat

/-- SETX (R98): lands three steps later. -/
def setxOp (x : BitVec 2) (a : BitVec 6) (imm : BitVec 8) : SlotOp :=
  { reads := fun _ => [sKey a.toNat]
    issue := fun e s => .ok (e.flyK s 5 3 x.toNat (BitVec.ofNat 64 (((e.S a).toNat + imm.toNat) % 192))) }

/-- MOVBT lands two steps later, MFBT one (R99). -/
def movbtOp (bt : BitVec 3) (a : BitVec 6) : SlotOp :=
  { reads := fun _ => [sKey a.toNat], issue := fun e s => .ok (e.flyK s 6 2 bt.toNat (e.S a)) }
def mfbtOp (d : BitVec 6) (bt : BitVec 3) : SlotOp :=
  { writes := fun _ => [sKey d.toNat], issue := fun e s => .ok (e.flyS s 1 d (e.regs.getBt bt.toNat)) }

/-- MFC (R72). -/
def mfcOp (d : BitVec 6) (cr : BitVec 12) : SlotOp :=
  { writes := fun _ => [sKey d.toNat], issue := fun e s => .ok (e.flyS s 1 d (e.pre.readCr e.g cr.toNat)) }

/-- Whether a change of ls.split moves a bank some context of the core holds claimed (R76). -/
def Core.splitMovesClaimed (c : Core) (new : Nat) : Bool :=
  c.banks.any fun e =>
    decide (4 * min c.split new ≤ e.1) && decide (e.1 < 4 * max c.split new) && e.2.isSome

/-- The checks of an MTC at issue (R72, R73, R76, R352). -/
def mtcCheck (e : Env) (n : Nat) (v : Word) : Option TrapCode :=
  if !crWritable n then some .access
  else if e.regs.inSeg ∧ (n = 0x030 ∨ n = 0x040 ∨ n = 0x041 ∨ n = 0x042) then some .illegalOperand
  else if (n = 0x010 ∨ n = 0x011 ∨ n = 0x042) ∧ v.toNat % 32 ≠ 0 then some .align
  else if n = 0x061 ∧ (List.range 4).any fun i => decide (191 < field v.toNat (8 * i) 8) then some .illegalOperand
  else if n = 0x030 ∧ 8 < v.toNat then some .illegalOperand
  else if n = 0x030 ∧ e.core.splitMovesClaimed v.toNat then some .access
  else none

/-- MTC (R72): lands at n+1. An ALIGN trap tells the target (R343). -/
def mtcOp (cr : BitVec 12) (a : BitVec 6) : SlotOp :=
  { reads := fun _ => [sKey a.toNat]
    issue := fun e s =>
      match mtcCheck e cr.toNat (e.S a) with
      | some t => .error (e.trap t (if t = .align then e.S a else 0))
      | none => .ok (e.flyK s 7 1 cr.toNat (e.S a)) }

def faddOp := scaF (fAdd FP32)
def fsubOp := scaF (fSub FP32)
def fmulOp := scaF (fMul FP32)
def fminOp := scaF fun a b => noFlags (fMinNum FP32 a b)
def fmaxOp := scaF fun a b => noFlags (fMaxNum FP32 a b)

/-- FFMA (R100): s(d) is the addend. -/
def ffmaOp (d a b : BitVec 6) : SlotOp :=
  { reads := fun _ => [sKey a.toNat, sKey b.toNat, sKey d.toNat], writes := fun _ => [sKey d.toNat]
    issue := fun e s =>
      let r := fFma FP32 (lo32 (e.S a)) (lo32 (e.S b)) (lo32 (e.S d))
      .ok (e.flyS s 4 d (BitVec.ofNat 64 r.1) r.2) }

/-- FCVTI and ICVTF (R101). -/
def fcvtiOp (n64 : Bool) (d a : BitVec 6) : SlotOp :=
  { reads := fun _ => [sKey a.toNat], writes := fun _ => [sKey d.toNat]
    issue := fun e s =>
      let r := fcvtiVal n64 (lo32 (e.S a))
      .ok (e.flyS s 4 d (BitVec.ofNat 64 r.1) r.2) }
def icvtfOp (n64 : Bool) (d a : BitVec 6) : SlotOp :=
  { reads := fun _ => [sKey a.toNat], writes := fun _ => [sKey d.toNat]
    issue := fun e s =>
      let r := icvtfVal n64 (e.S a)
      .ok (e.flyS s 4 d (BitVec.ofNat 64 r.1) r.2) }

end Sys2Proof.Machine
end

