-- ==== Sys2Proof/Machine/TransformOps.lean ====
section
/-! DEFINITION. The transform slot: conversion, quantisation, the codec, transposition, packing, statistics (R148 to R157). -/

namespace Sys2Proof.Machine

/-- A transform of row a into row d (R149): XF has one operand latch, and no form without write-back. -/
def xf1 (lat : Nat) (d a : BitVec 6) (f : Env → Row → Except Trap (Row × Flags)) (also_ : Env → State → Row → State) : SlotOp :=
  { reads := fun e => e.rowKeys [a], writes := fun e => e.rowKeys [d], queues := queueCodes [a]
    issue := fun e s =>
      match e.src 0 a with
      | .error t => .error t
      | .ok x =>
        match f e x with
        | .error t => .error t
        | .ok r => .ok (also_ e (e.flyRow (e.capture 0 x s) lat false d r.1 r.2) x) }

/-- A transform that cannot fail and does nothing else. -/
def xfPlain (lat : Nat) (d a : BitVec 6) (f : Row → Row × Flags) : SlotOp := xf1 lat d a (fun _ x => .ok (f x)) fun _ s _ => s

/-- The pending statistics update of .stat, due with the result (R59, R155; log entry 9). -/
def Env.flyStat (e : Env) (s : State) (lat : Nat) (tgt from_ : XFmt) (xq inf : Bool) (x scale : Row) : State :=
  s.fly e.g { kind := 9, remain := lat, dest := 0, slot := e.slot, value := statCode tgt from_ xq inf xfmtNum, row := x, row2 := scale }

/-- XCVT (R151). -/
def xcvtOp (tgt from_ : XFmt) (stat inf : Bool) (d a : BitVec 6) : SlotOp :=
  xf1 4 d a (fun _ x => .ok (cvtRow from_ tgt inf x)) fun e s x => if stat then e.flyStat s 4 tgt from_ false inf x 0 else s

/-- XQNT (R153). -/
def xqntOp (tgt : XFmt) (bf : Bool) (sc : BitVec 3) (stat : Bool) (d a : BitVec 6) : SlotOp :=
  xf1 6 d a
    (fun e x => let r := xqntRow tgt bf (e.regs.getSc sc.toNat) x; .ok (r.1, r.2.1))
    fun e s x =>
      if stat then e.flyStat s 6 tgt (if bf then .bf16 else .fp32) true false x (if tgt = .e4m3 then e.regs.getSc sc.toNat else 0) else s

/-- XDEQ (R154). -/
def xdeqOp (from_ : XFmt) (bf : Bool) (sc : BitVec 3) (d a : BitVec 6) : SlotOp :=
  xf1 4 d a (fun e x => .ok (xdeqRow from_ bf (e.regs.getSc sc.toNat) x)) fun _ s _ => s

/-- XTRN (R156): the width code 0, 1, 2 is 32, 16, 8 bits. -/
def xtrnOp (w : BitVec 2) (d a : BitVec 6) : SlotOp := xfPlain 8 d a fun x => (xtrnRow (32 / 2 ^ w.toNat) x, 0)

/-- XEXP (R148): an invalid header, or one whose ceiling is not the instruction's, raises ILLEGAL_OPERAND. -/
def xexpOp (ceil : BitVec 2) (d a : BitVec 6) : SlotOp :=
  xf1 5 d a
    (fun e x =>
      let bs := rowBytes x
      let h := bs.headD 0
      if !headerOk h || headerCeil h != ceil.toNat then .error (e.trap .illegalOperand)
      else .ok (bytesRow (blockDecode bs), 0))
    fun _ s _ => s

/-- XCMP (R148). -/
def xcmpOp (ceil : BitVec 2) (d a : BitVec 6) : SlotOp := xfPlain 5 d a fun x => (xcmpRow ceil.toNat x, 0)

/-- XSCL (R152): the row goes to a scale register; no latch of results moves (R149). -/
def xsclOp (sc : BitVec 3) (a : BitVec 6) : SlotOp :=
  { reads := fun e => e.rowKeys [a], queues := queueCodes [a]
    issue := fun e s =>
      match e.src 0 a with
      | .error t => .error t
      | .ok x => .ok ((e.capture 0 x s).fly e.g { kind := 8, remain := 5, dest := sc.toNat, slot := e.slot, row := x }) }

/-- XSTAT (R155): samples at its due step. -/
def xstatOp (clr : Bool) (d : BitVec 6) : SlotOp :=
  { writes := fun e => e.rowKeys [d]
    issue := fun e s => .ok (s.fly e.g { kind := 11, remain := 6, dest := e.dst d, slot := e.slot, value := if clr then 1 else 0 }) }

/-- XPACK and XUNPK (R157). -/
def xpackOp (f : XFmt) (d a : BitVec 6) : SlotOp := xfPlain 4 d a fun x => (xpackRow f x, 0)
def xunpkOp (f : XFmt) (d a : BitVec 6) : SlotOp := xfPlain 4 d a fun x => (xunpkRow f x, 0)

end Sys2Proof.Machine
end

