-- ==== Sys2Proof/Machine/Bundle.lean ====
section
/-! DEFINITION. From a bundle's bytes to its operations: the operation of each instruction, fetch and decode with their traps, a clock of a core (R8 to R13, R222). -/

namespace Sys2Proof.Machine

/-- The operation a slot instruction stands for; none for the events of the part, which no bundle holds. -/
def opOf : Instr → Option SlotOp
  | .bra off => some (braOp off)
  | .brc p off => some (brcOp p off)
  | .brm t0 t1 t2 t3 bt => some (brmOp t0 t1 t2 t3 bt)
  | .brr bt => some (brrOp bt)
  | .call off => some (callOp off)
  | .callr bt => some (callrOp bt)
  | .ret => some (retOp)
  | .loop cnt len => some (loopOp cnt len)
  | .waitCtrGe scope sa sb => some (waitCtrGeOp scope sa sb)
  | .waitWpGe scope sa sb => some (waitWpGeOp scope sa sb)
  | .waitCoDone scope sa => some (waitCoDoneOp scope sa)
  | .waitBanks sa => some (waitBanksOp sa)
  | .waitTiles sa => some (waitTilesOp sa)
  | .waitQne sa => some (waitQneOp sa)
  | .waitTime sa => some (waitTimeOp sa)
  | .yield => some (yieldOp)
  | .done => some (doneOp)
  | .trap code => some (trapOp code)
  | .eret => some (eretOp)
  | .segb idx => some (segbOp idx)
  | .sege => some (segeOp)
  | .rdv id => some (rdvOp id)
  | .bkpt code => some (bkptOp code)
  | .phase scope => some (phaseOp scope)
  | .add d a b => some (addOp d a b)
  | .sub d a b => some (subOp d a b)
  | .mul d a b => some (mulOp d a b)
  | .mulh d a b => some (mulhOp d a b)
  | .mulhn d a b => some (mulhnOp d a b)
  | .div d a b => some (divOp d a b)
  | .divn d a b => some (divnOp d a b)
  | .rem d a b => some (remOp d a b)
  | .remn d a b => some (remnOp d a b)
  | .and d a b => some (andOp d a b)
  | .or d a b => some (orOp d a b)
  | .xor d a b => some (xorOp d a b)
  | .andn d a b => some (andnOp d a b)
  | .shl d a b => some (shlOp d a b)
  | .shr d a b => some (shrOp d a b)
  | .sra d a b => some (sraOp d a b)
  | .min d a b => some (minOp d a b)
  | .max d a b => some (maxOp d a b)
  | .minn d a b => some (minnOp d a b)
  | .maxn d a b => some (maxnOp d a b)
  | .clz d a => some (clzOp d a)
  | .popc d a => some (popcOp d a)
  | .sel d a b k => some (selOp d a b k)
  | .addi d a imm => some (addiOp d a imm)
  | .andi d a imm => some (andiOp d a imm)
  | .ori d a imm => some (oriOp d a imm)
  | .xori d a imm => some (xoriOp d a imm)
  | .shli d a n => some (shliOp d a n)
  | .shri d a n => some (shriOp d a n)
  | .srai d a n => some (sraiOp d a n)
  | .li d imm => some (liOp d imm)
  | .lis d imm => some (lisOp d imm)
  | .adds d a b k => some (addsOp d a b k)
  | .cmp pair cond a b => some (cmpOp pair cond a b)
  | .cmpi pair cond a imm => some (cmpiOp pair cond a imm)
  | .pand pair pa pb => some (pandOp pair pa pb)
  | .por pair pa pb => some (porOp pair pa pb)
  | .pxor pair pa pb => some (pxorOp pair pa pb)
  | .setx x a imm => some (setxOp x a imm)
  | .movbt bt a => some (movbtOp bt a)
  | .mfbt d bt => some (mfbtOp d bt)
  | .mfc d cr => some (mfcOp d cr)
  | .mtc cr a => some (mtcOp cr a)
  | .fadd d a b => some (faddOp d a b)
  | .fsub d a b => some (fsubOp d a b)
  | .fmul d a b => some (fmulOp d a b)
  | .ffma d a b => some (ffmaOp d a b)
  | .fmin d a b => some (fminOp d a b)
  | .fmax d a b => some (fmaxOp d a b)
  | .fcmp pair cond a b => some (fcmpOp pair cond a b)
  | .fcvti n64 d a => some (fcvtiOp n64 d a)
  | .icvtf n64 d a => some (icvtfOp n64 d a)
  | .vadd vs fmt nwb d a b => some (vaddOp fmt nwb d a b)
  | .vsub vs fmt nwb d a b => some (vsubOp fmt nwb d a b)
  | .vmul vs fmt nwb d a b => some (vmulOp fmt nwb d a b)
  | .vfma vs fmt nwb d a b => some (vfmaOp fmt nwb d a b)
  | .vfms vs fmt nwb d a b => some (vfmsOp fmt nwb d a b)
  | .vmin vs fmt nwb d a b => some (vminOp fmt nwb d a b)
  | .vmax vs fmt nwb d a b => some (vmaxOp fmt nwb d a b)
  | .vabs vs fmt nwb d a => some (vabsOp fmt nwb d a)
  | .vneg vs fmt nwb d a => some (vnegOp fmt nwb d a)
  | .vabd vs fmt nwb d a b => some (vabdOp fmt nwb d a b)
  | .vand vs fmt nwb d a b => some (vandOp nwb d a b)
  | .vor vs fmt nwb d a b => some (vorOp nwb d a b)
  | .vxor vs fmt nwb d a b => some (vxorOp nwb d a b)
  | .vshl vs fmt nwb d a b => some (vshlOp fmt nwb d a b)
  | .vshr vs fmt nwb d a b => some (vshrOp fmt nwb d a b)
  | .vsra vs fmt nwb d a b => some (vsraOp fmt nwb d a b)
  | .vadds vs fmt nwb d a b => some (vaddsOp fmt nwb d a b)
  | .vsubs vs fmt nwb d a b => some (vsubsOp fmt nwb d a b)
  | .vcmpeq vs fmt nwb d a b => some (vcmpeqOp fmt nwb d a b)
  | .vcmplt vs fmt nwb d a b => some (vcmpltOp fmt nwb d a b)
  | .vcmple vs fmt nwb d a b => some (vcmpleOp fmt nwb d a b)
  | .vsel vs fmt nwb d a b => some (vselOp nwb d a b)
  | .vexp2 vs fmt nwb d a => some (vexp2Op fmt nwb d a)
  | .vlog2 vs fmt nwb d a => some (vlog2Op fmt nwb d a)
  | .vrcp vs fmt nwb d a => some (vrcpOp fmt nwb d a)
  | .vrsq vs fmt nwb d a => some (vrsqOp fmt nwb d a)
  | .vcvt vs fmt nwb d a from_ inf => some (vcvtOp fmt nwb d a from_ inf)
  | .vbcast vs fmt nwb d a lane => some (vbcastOp fmt nwb d a lane)
  | .vbcs vs fmt nwb d sa => some (vbcsOp fmt nwb d sa)
  | .vperm vs fmt nwb d a b => some (vpermOp fmt nwb d a b)
  | .vredadd vs fmt nwb d a => some (vredaddOp fmt nwb d a)
  | .vredmax vs fmt nwb d a => some (vredmaxOp fmt nwb d a)
  | .vredmin vs fmt nwb d a => some (vredminOp fmt nwb d a)
  | .vscan vs fmt nwb d a => some (vscanOp fmt nwb d a)
  | .vdot4 vs fmt nwb d a b => some (vdot4Op fmt nwb d a b)
  | .vmov vs fmt nwb d a => some (vmovOp nwb d a)
  | .viota vs fmt nwb d sa => some (viotaOp fmt nwb d sa)
  | .vmskp vs fmt pair a => some (vmskpOp fmt pair a)
  | .vmskc vs fmt sd a => some (vmskcOp fmt sd a)
  | .vshuf vs fmt nwb d a pat => some (vshufOp fmt nwb d a pat)
  | .vmovs vs fmt sd a lane => some (vmovsOp fmt sd a lane)
  | .vins vs fmt nwb d sa lane => some (vinsOp fmt nwb d sa lane)
  | .ldl data base imm => some (ldlOp data base imm)
  | .stl data base imm => some (stlOp data base imm)
  | .ldlp data base imm => some (ldlpOp data base imm)
  | .stlp data base imm => some (stlpOp data base imm)
  | .ldls data base sz off => some (ldlsOp data base sz off)
  | .stls data base sz off => some (stlsOp data base sz off)
  | .ldg data base cp imm => some (ldgOp data base cp imm)
  | .stg data base cp imm => some (stgOp data base cp imm)
  | .ldgp data base cp imm => some (ldgpOp data base cp imm)
  | .stgp data base cp imm => some (stgpOp data base cp imm)
  | .ldgs data base cp sz off => some (ldgsOp data base cp sz off)
  | .stgs data base cp sz off => some (stgsOp data base cp sz off)
  | .atom f w64 cp data base => some (atomOp f w64 cp data base)
  | .atoml f w64 data base => some (atomlOp f w64 data base)
  | .fenceAcq scope => some (fenceAcqOp scope)
  | .fenceRel scope => some (fenceRelOp scope)
  | .fenceAcqrel scope => some (fenceAcqrelOp scope)
  | .claimb mask => some (claimbOp mask)
  | .relb mask => some (relbOp mask)
  | .claimt mask => some (claimtOp mask)
  | .relt mask => some (reltOp mask)
  | .prfg len base cp imm => some (prfgOp len base cp imm)
  | .publ len base imm => some (publOp len base imm)
  | .invl len base imm => some (invlOp len base imm)
  | .ldlx data base imm => some (ldlxOp data base imm)
  | .xcvt tgt from_ stat inf d a => some (xcvtOp tgt from_ stat inf d a)
  | .xqnt tgt bf sc stat d a => some (xqntOp tgt bf sc stat d a)
  | .xdeq from_ bf sc d a => some (xdeqOp from_ bf sc d a)
  | .xtrn w d a => some (xtrnOp w d a)
  | .xexp ceil d a => some (xexpOp ceil d a)
  | .xcmp ceil d a => some (xcmpOp ceil d a)
  | .xscl sc a => some (xsclOp sc a)
  | .xstat clr d => some (xstatOp clr d)
  | .xpack f d a => some (xpackOp f d a)
  | .xunpk f d a => some (xunpkOp f d a)
  | .tdesc td sa => some (tdescOp td sa)
  | .mma tile ta tb op cnt z ck => some (mmaOp tile ta tb op cnt z ck)
  | .mmap tile ta tb cnt z ck => some (mmapOp tile ta tb cnt z ck)
  | .cpat sa => some (cpatOp sa)
  | .mzero tile cnt => some (mzeroOp tile cnt)
  | .mdrain tile fmt sa cnt codec stat chk => some (mdrainOp tile fmt sa cnt codec stat chk)
  | .mboomRmax tile sa cnt => some (mboomRmaxOp tile sa cnt)
  | .mboomRsum tile sa cnt => some (mboomRsumOp tile sa cnt)
  | .mboomRscale tile sa cnt => some (mboomRscaleOp tile sa cnt)
  | .mboomCscale tile sa cnt => some (mboomCscaleOp tile sa cnt)
  | .mboomSexp tile sa cnt => some (mboomSexpOp tile sa cnt)
  | .mboomNorm tile cnt => some (mboomNormOp tile cnt)
  | .mboomCzero tile cnt => some (mboomCzeroOp tile cnt)
  | .mboomRstat tile sa cnt => some (mboomRstatOp tile sa cnt)
  | .attn tile tq sh sr => some (attnOp tile tq sh sr)
  | .acarryExp tile l j row => some (acarryExpOp tile l j row)
  | .acarryImp tile l j row => some (acarryImpOp tile l j row)
  | .mstat sa item => some (mstatOp sa item)
  | .copy sa ch => some (copyOp sa ch)
  | .gath sa ch => some (gathOp sa ch)
  | .scat sa ch => some (scatOp sa ch)
  | .put sa win => some (putOp sa win)
  | .get sa win => some (getOp sa win)
  | .coll sa => some (collOp sa)
  | .signal sa sb scope => some (signalOp sa sb scope)
  | .bar scope id => some (barOp scope id)
  | .launch sa => some (launchOp sa)
  | .take sa sb max => some (takeOp sa sb max)
  | .trig => some (trigOp)
  | .hist sa sb => some (histOp sa sb)
  | .hlatch sa => some (hlatchOp sa)
  | .topk sa => some (topkOp sa)
  | .topkr sa => some (topkrOp sa)
  | .kvapp sa sb => some (kvappOp sa sb)
  | .kvsync scope => some (kvsyncOp scope)
  | .kvfork sa sb => some (kvforkOp sa sb)
  | .kvfree sa => some (kvfreeOp sa)
  | .kvtrim sa sb => some (kvtrimOp sa sb)
  | .kvcmpt sa => some (kvcmptOp sa)
  | .kvpf sa sb => some (kvpfOp sa sb)
  | .kvdem sa sb mx => some (kvdemOp sa sb mx)
  | .kvlend sa => some (kvlendOp sa)
  | .kvrsv sa pair => some (kvrsvOp sa pair)
  | .kvqry sa sb item => some (kvqryOp sa sb item)
  | .time sa => some (timeOp sa)
  | .perf sa ctr => some (perfOp sa ctr)
  | .syscVersion sa => some (syscVersionOp sa)
  | .syscHealth sa => some (syscHealthOp sa)
  | .syscBarrierSetup sa => some (syscBarrierSetupOp sa)
  | .syscBarrierCancel sa => some (syscBarrierCancelOp sa)
  | .syscReleaseHeld sa => some (syscReleaseHeldOp sa)
  | .syscCancelHeld sa => some (syscCancelHeldOp sa)
  | .winreg sa sb => some (winregOp sa sb)
  | .qsend sa sb => some (qsendOp sa sb)
  | .syscUnknownService sa svc => some (syscUnknownServiceOp sa svc)
  | .bundle _ => none
  | .resultLands _ => none
  | .globalLoadLands _ => none
  | .contextSwitch _ => none
  | .halyardEntryStart _ _ => none
  | .mmaGroupEnd _ => none
  | .attnPageEnd _ => none
  | .halyardEntryEnd _ _ => none
  | .kvFaultService _ => none
  | .qsendDeferredDeliver _ => none
  | .engineAccept _ => none
  | .copyGranuleLands _ _ => none
  | .engineThreadComplete _ => none
  | .kvlendRun _ => none
  | .filerFileEntry _ => none
  | .spindleDecide _ => none
  | .dependenceDecided _ => none
  | .dispatchGang _ => none
  | .homeRead _ _ => none
  | .homeWiRead _ _ => none
  | .homeWriteAccept _ _ => none
  | .homeOwnRequest _ _ => none
  | .homeSurrender _ _ => none
  | .forwardedRead _ => none
  | .walkerAnswer _ => none
  | .timebaseTick => none
  | .passedOverTimeout _ => none
  | .putAckReturn _ => none
  | .shroudDrainEnd _ => none
  | .shroudZeroiseEnd _ => none
  | .moveCommit _ _ _ => none
  | .ladderRun _ _ => none
  | .controllerPromote _ _ _ => none
  | .preemptionCall _ => none
  | .biasFlipEffect _ _ => none
  | .migratePause _ _ _ => none
  | .putLandedAtOwner _ _ _ _ _ => none
  | .frameTake _ _ _ => none
  | .frameReturn _ _ _ => none
  | .scrubberRun _ _ => none
  | .registrantRevocation _ _ => none
  | .coreInvalidation _ _ => none
  | .summaryBucketClear _ _ => none
  | .l2UeDetect _ _ _ => none
  | .translationChange _ _ _ => none
  | .mapChange _ _ _ _ => none
  | .coreReef _ _ => none
  | .debugResume _ => none
  | .launchWindowStore _ _ => none
  | .shroudOpen _ => none
  | .shroudReset _ => none
  | .mboxConfigureStore _ _ => none
  | .mboxUnconfigureStore _ _ => none
  | .mboxRegisterPodWindow _ _ => none
  | .mboxWithdrawPodWindow _ _ => none
  | .mboxSetSpnCtl _ _ => none
  | .mboxSetFaultRecordArea _ _ => none
  | .mboxSetTrapRecords _ _ => none
  | .mboxSetPinOrClass _ _ => none
  | .mboxDeclareMeasuredImage _ _ => none
  | .mboxWriteWindowEntry _ _ => none
  | .mboxHeldLaunchPrivilege _ _ => none
  | .mboxOfferLendingPool _ _ => none
  | .mboxWithdrawLendingPool _ _ => none
  | .mboxSetTimeMaster _ _ => none
  | .migrateStart _ _ => none
  | .migrateRound _ _ => none
  | .migrateSave _ _ => none
  | .migrateRestore _ _ => none
  | .mboxFirmwareUpdate _ _ => none
  | .noteHeadWrite _ _ => none
  | .biasToHost _ _ => none
  | .biasToDevice _ _ => none
  | .hostCxlMemAccess _ _ _ => none
  | .hostSnoop _ => none
  | .poolBackInvalidate _ => none
  | .poolDeviceTimeout _ _ => none
  | .gateAuditRead _ => none
  | .spnStatRead _ => none
  | .pksStatRead => none
  | .registerWrite _ _ _ => none
  | .zellenFlitReceive _ _ _ _ => none
  | .zellenLinkDown _ => none
  | .zellenLinkUp _ => none
  | .timeSyncFlit _ _ => none
  | .spdmSessionOpen _ _ => none
  | .ideKmQuery _ _ => none
  | .ideKmKeyProg _ _ _ _ _ => none
  | .ideKmKeySetGo _ _ _ _ => none
  | .ideKmKeySetStop _ _ _ _ => none
  | .spdmSessionEnd _ => none
  | .spdmAttestationRequest _ _ => none
  | .ideIntegrityFailure _ => none
  | .linkReset => none
  | .powerOn _ _ _ _ => none
  | .packageReset => none
  | .vfFunctionLevelReset _ => none
  | .powerLimitExceeded _ _ => none
  | .thermalThrottle _ _ => none
  | .thermalStop _ => none
  | .wiCopyDrop _ _ => none
  | .debuggerAttach _ _ _ => none
  | .launchKill _ => none
  | .engineReset _ _ => none
  | .throttlingEnd _ _ _ => none
  | .powerOff => none
  | .mboxUnknownCommand _ _ _ => none

/-- The trap of a decode failure in a slot (R12, R343, R345). -/
def decodeTrap (pc : Word) (slot : Nat) : DecErr → Trap
  | .illegalOp => { code := .illegalOp, slot := slot, pc := pc, epc := pc }
  | .illegalOperand => { code := .illegalOperand, slot := slot, pc := pc, epc := pc }
  | .illegalBundle => { code := .illegalBundle, slot := slot, pc := pc, epc := pc }

/-- A decoded bundle made ready to issue. -/
def prepOf (bytes : Nat) (b : Bundle) : Prep :=
  { raw := bytes, ctl := slotWord bytes 0, pop := b.pop, ops := b.ops.filterMap fun o => (opOf o.2.2).map fun op => (o.1, o.2.1, op) }

/-- The bundle that the holder's freeze stands before: it was fetched and has passed stage 3 (R229). -/
def State.frozenBundle (s : State) (g : Nat) : Option Nat :=
  if (s.core (g / 4)).thaw ∧ (s.core (g / 4)).holder = some (g % 4) then some (s.core (g / 4)).fetched else none

/-- A bundle's bits decoded and made ready, or the trap of its decode. -/
def prepBits (pc : Word) (n : Nat) : Except Trap Prep :=
  match decodeBundle n with
  | .error e => .error (decodeTrap pc (badSlot n) e)
  | .ok b => .ok (prepOf n b)

/-- The bundle at a context's pc: fetched from its home (R13 stage 1) and decoded, or its trap. -/
def lookAt (s : State) (g : Nat) : Except Trap Prep :=
  let pc := (s.ctx g).regs.pc
  match s.frozenBundle g with
  | some n => prepBits pc n
  | none =>
  match s.resolve (s.partOf (g / 4)) pc 32 .fetch with
  | .error t => .error { code := t, addr := pc, pc := pc, epc := pc, isFetch := true, gate := t == .window, anySlot := true }
  | .ok pa => prepBits pc (s.homeN pa 32)

/-- The context whose bundle a core issues next: its holder. -/
def State.holderCtx (s : State) (k : Nat) : Option Nat := (s.core k).holder.map fun c => 4 * k + c

/-- One instruction as the only operation of the bundle under p0 that the holder of core `turn` issues; an ill-formed one
raises the ILLEGAL_OPERAND of its decode (R12). -/
def singlePrep (i : Instr) (slot : Nat) (op : SlotOp) (pc : Word) : Except Trap Prep :=
  if i.wellFormed then
    .ok { raw := (encodeBundle i).getD 0, ctl := match encodeBundle i with | some b => slotWord b 0 | none => 0, pop := 0, ops := [(slot, 0, op)] }
  else .error (decodeTrap pc slot .illegalOperand)

/-- The looks of a clock whose holder's bundle was fetched as it began (R13 stage 1): that bundle while the context holds
issue at the same address, else the bundle that the context fetches now. -/
def fetchedLook (first : Except Trap Prep) (s0 : State) (turn : Nat) (s : State) (g : Nat) : Except Trap Prep :=
  if s0.holderCtx turn = some g ∧ (s.ctx g).regs.pc = (s0.ctx g).regs.pc then first else lookAt s g

/-- One clock of core k with the bundles its contexts fetch (R13, R222). -/
def State.clock (s : State) (k : Nat) : State :=
  match s.holderCtx k with
  | some g => coreClock (fetchedLook (lookAt s g) s k) k s
  | none => coreClock lookAt k s

/-- One clock of core `turn` whose holder's bundle is that instruction alone. -/
def issueSingle (i : Instr) (slot : Nat) (op : SlotOp) (s : State) : Host.Outcome State Fault Refusal :=
  match s.holderCtx s.turn with
  | some g => .next (coreClock (fetchedLook (singlePrep i slot op (s.ctx g).regs.pc) s s.turn) s.turn s)
  | none => .next (coreClock lookAt s.turn s)

end Sys2Proof.Machine
end

