-- ==== Sys2Proof/Machine/Array.lean ====
section
/-! DEFINITION. The array instructions: the meaning of each as the one operation of the bundle that core `turn` issues next (R13). -/

namespace Sys2Proof.Machine

/-- TDESC (R162). -/
def execTdesc (td : BitVec 4) (sa : BitVec 6) (s : State) : Host.Outcome State Fault Refusal :=
  issueSingle (.tdesc td sa) 5 (tdescOp td sa) s

/-- MMA (R169). -/
def execMma (tile ta tb : BitVec 4) (op : CellOp) (cnt : BitVec 4) (z ck : Bool) (s : State) : Host.Outcome State Fault Refusal :=
  issueSingle (.mma tile ta tb op cnt z ck) 5 (mmaOp tile ta tb op cnt z ck) s

/-- MMAP (R169). -/
def execMmap (tile ta tb : BitVec 4) (cnt : BitVec 4) (z ck : Bool) (s : State) : Host.Outcome State Fault Refusal :=
  issueSingle (.mmap tile ta tb cnt z ck) 5 (mmapOp tile ta tb cnt z ck) s

/-- CPAT (R170). -/
def execCpat (sa : BitVec 6) (s : State) : Host.Outcome State Fault Refusal :=
  issueSingle (.cpat sa) 5 (cpatOp sa) s

/-- MZERO (R172). -/
def execMzero (tile cnt : BitVec 4) (s : State) : Host.Outcome State Fault Refusal :=
  issueSingle (.mzero tile cnt) 5 (mzeroOp tile cnt) s

/-- MDRAIN (R173). -/
def execMdrain (tile : BitVec 4) (fmt : XFmt) (sa : BitVec 6) (cnt : BitVec 4) (codec : BitVec 2) (stat chk : Bool) (s : State) : Host.Outcome State Fault Refusal :=
  issueSingle (.mdrain tile fmt sa cnt codec stat chk) 5 (mdrainOp tile fmt sa cnt codec stat chk) s

/-- MBOOM_RMAX (R178). -/
def execMboomRmax (tile : BitVec 4) (sa : BitVec 6) (cnt : BitVec 4) (s : State) : Host.Outcome State Fault Refusal :=
  issueSingle (.mboomRmax tile sa cnt) 5 (mboomRmaxOp tile sa cnt) s

/-- MBOOM_RSUM (R178). -/
def execMboomRsum (tile : BitVec 4) (sa : BitVec 6) (cnt : BitVec 4) (s : State) : Host.Outcome State Fault Refusal :=
  issueSingle (.mboomRsum tile sa cnt) 5 (mboomRsumOp tile sa cnt) s

/-- MBOOM_RSCALE (R178). -/
def execMboomRscale (tile : BitVec 4) (sa : BitVec 6) (cnt : BitVec 4) (s : State) : Host.Outcome State Fault Refusal :=
  issueSingle (.mboomRscale tile sa cnt) 5 (mboomRscaleOp tile sa cnt) s

/-- MBOOM_CSCALE (R178). -/
def execMboomCscale (tile : BitVec 4) (sa : BitVec 6) (cnt : BitVec 4) (s : State) : Host.Outcome State Fault Refusal :=
  issueSingle (.mboomCscale tile sa cnt) 5 (mboomCscaleOp tile sa cnt) s

/-- MBOOM_SEXP (R178). -/
def execMboomSexp (tile : BitVec 4) (sa : BitVec 6) (cnt : BitVec 4) (s : State) : Host.Outcome State Fault Refusal :=
  issueSingle (.mboomSexp tile sa cnt) 5 (mboomSexpOp tile sa cnt) s

/-- MBOOM_NORM (R178). -/
def execMboomNorm (tile cnt : BitVec 4) (s : State) : Host.Outcome State Fault Refusal :=
  issueSingle (.mboomNorm tile cnt) 5 (mboomNormOp tile cnt) s

/-- MBOOM_CZERO (R178). -/
def execMboomCzero (tile cnt : BitVec 4) (s : State) : Host.Outcome State Fault Refusal :=
  issueSingle (.mboomCzero tile cnt) 5 (mboomCzeroOp tile cnt) s

/-- MBOOM_RSTAT (R178). -/
def execMboomRstat (tile : BitVec 4) (sa : BitVec 6) (cnt : BitVec 4) (s : State) : Host.Outcome State Fault Refusal :=
  issueSingle (.mboomRstat tile sa cnt) 5 (mboomRstatOp tile sa cnt) s

/-- ATTN (R181). -/
def execAttn (tile tq : BitVec 4) (sh sr : BitVec 6) (s : State) : Host.Outcome State Fault Refusal :=
  issueSingle (.attn tile tq sh sr) 5 (attnOp tile tq sh sr) s

/-- ACARRY_EXP (R186). -/
def execAcarryExp (tile : BitVec 4) (l : Bool) (j : BitVec 2) (row : BitVec 6) (s : State) : Host.Outcome State Fault Refusal :=
  issueSingle (.acarryExp tile l j row) 5 (acarryExpOp tile l j row) s

/-- ACARRY_IMP (R186). -/
def execAcarryImp (tile : BitVec 4) (l : Bool) (j : BitVec 2) (row : BitVec 6) (s : State) : Host.Outcome State Fault Refusal :=
  issueSingle (.acarryImp tile l j row) 5 (acarryImpOp tile l j row) s

/-- MSTAT (R187). -/
def execMstat (sa : BitVec 6) (item : BitVec 4) (s : State) : Host.Outcome State Fault Refusal :=
  issueSingle (.mstat sa item) 5 (mstatOp sa item) s

end Sys2Proof.Machine
end

