-- ==== Sys2Proof/Machine/Control.lean ====
section
/-! DEFINITION. The control instructions: the meaning of each as the one operation of the bundle that core `turn` issues next (R13). -/

namespace Sys2Proof.Machine

/-- BRA (R77). -/
def execBra (off : BitVec 19) (s : State) : Host.Outcome State Fault Refusal :=
  issueSingle (.bra off) 0 (braOp off) s

/-- BRC (R77). -/
def execBrc (p : BitVec 4) (off : BitVec 15) (s : State) : Host.Outcome State Fault Refusal :=
  issueSingle (.brc p off) 0 (brcOp p off) s

/-- BRM (R77). -/
def execBrm (t0 t1 t2 t3 : BitVec 4) (bt : BitVec 3) (s : State) : Host.Outcome State Fault Refusal :=
  issueSingle (.brm t0 t1 t2 t3 bt) 0 (brmOp t0 t1 t2 t3 bt) s

/-- BRR (R77). -/
def execBrr (bt : BitVec 3) (s : State) : Host.Outcome State Fault Refusal :=
  issueSingle (.brr bt) 0 (brrOp bt) s

/-- CALL (R77). -/
def execCall (off : BitVec 19) (s : State) : Host.Outcome State Fault Refusal :=
  issueSingle (.call off) 0 (callOp off) s

/-- CALLR (R77). -/
def execCallr (bt : BitVec 3) (s : State) : Host.Outcome State Fault Refusal :=
  issueSingle (.callr bt) 0 (callrOp bt) s

/-- RET (R77). -/
def execRet (s : State) : Host.Outcome State Fault Refusal :=
  issueSingle (.ret) 0 (retOp) s

/-- LOOP (R80). -/
def execLoop (cnt : BitVec 6) (len : BitVec 13) (s : State) : Host.Outcome State Fault Refusal :=
  issueSingle (.loop cnt len) 0 (loopOp cnt len) s

/-- WAIT_CTR_GE (R83). -/
def execWaitCtrGe (scope : BitVec 3) (sa sb : BitVec 6) (s : State) : Host.Outcome State Fault Refusal :=
  issueSingle (.waitCtrGe scope sa sb) 0 (waitCtrGeOp scope sa sb) s

/-- WAIT_WP_GE (R83). -/
def execWaitWpGe (scope : BitVec 3) (sa sb : BitVec 6) (s : State) : Host.Outcome State Fault Refusal :=
  issueSingle (.waitWpGe scope sa sb) 0 (waitWpGeOp scope sa sb) s

/-- WAIT_CO_DONE (R83). -/
def execWaitCoDone (scope : BitVec 3) (sa : BitVec 6) (s : State) : Host.Outcome State Fault Refusal :=
  issueSingle (.waitCoDone scope sa) 0 (waitCoDoneOp scope sa) s

/-- WAIT_BANKS (R83). -/
def execWaitBanks (sa : BitVec 6) (s : State) : Host.Outcome State Fault Refusal :=
  issueSingle (.waitBanks sa) 0 (waitBanksOp sa) s

/-- WAIT_TILES (R83). -/
def execWaitTiles (sa : BitVec 6) (s : State) : Host.Outcome State Fault Refusal :=
  issueSingle (.waitTiles sa) 0 (waitTilesOp sa) s

/-- WAIT_QNE (R83). -/
def execWaitQne (sa : BitVec 6) (s : State) : Host.Outcome State Fault Refusal :=
  issueSingle (.waitQne sa) 0 (waitQneOp sa) s

/-- WAIT_TIME (R83). -/
def execWaitTime (sa : BitVec 6) (s : State) : Host.Outcome State Fault Refusal :=
  issueSingle (.waitTime sa) 0 (waitTimeOp sa) s

/-- YIELD (R85). -/
def execYield (s : State) : Host.Outcome State Fault Refusal :=
  issueSingle (.yield) 0 (yieldOp) s

/-- DONE (R86). -/
def execDone (s : State) : Host.Outcome State Fault Refusal :=
  issueSingle (.done) 0 (doneOp) s

/-- TRAP (R87). -/
def execTrap (code : BitVec 8) (s : State) : Host.Outcome State Fault Refusal :=
  issueSingle (.trap code) 0 (trapOp code) s

/-- ERET (R348). -/
def execEret (s : State) : Host.Outcome State Fault Refusal :=
  issueSingle (.eret) 0 (eretOp) s

/-- SEGB (R89). -/
def execSegb (idx : BitVec 16) (s : State) : Host.Outcome State Fault Refusal :=
  issueSingle (.segb idx) 0 (segbOp idx) s

/-- SEGE (R357). -/
def execSege (s : State) : Host.Outcome State Fault Refusal :=
  issueSingle (.sege) 0 (segeOp) s

/-- RDV (R90). -/
def execRdv (id : BitVec 8) (s : State) : Host.Outcome State Fault Refusal :=
  issueSingle (.rdv id) 0 (rdvOp id) s

/-- BKPT (R87). -/
def execBkpt (code : BitVec 8) (s : State) : Host.Outcome State Fault Refusal :=
  issueSingle (.bkpt code) 0 (bkptOp code) s

/-- PHASE (R91). -/
def execPhase (scope : BitVec 3) (s : State) : Host.Outcome State Fault Refusal :=
  issueSingle (.phase scope) 0 (phaseOp scope) s

end Sys2Proof.Machine
end

