-- ==== Sys2Proof/Machine/HalyardRun.lean ====
section
/-! DEFINITION. What array entries do as they run: cells, residues, drains, the boom, attention pages (R65, R169 to R189, R243 to R250). -/

namespace Sys2Proof.Machine

/-- astat bits (R188). -/
def astatOf (f : Flags) : BitVec 7 :=
  (if f &&& fOf != 0 then 2#7 else 0) ||| (if f &&& fNv != 0 then 4#7 else 0)

/-- A cell of the tiles by tile, row and column. -/
def cellKey (t i j : Nat) : Nat := t * 16384 + i * 64 + j
def Core.cell (c : Core) (t i j : Nat) : Nat := (Tab.get 0 c.cells (cellKey t i j)).toNat
def Core.setCell (c : Core) (t i j v : Nat) : Core := { c with cells := Tab.set 0 c.cells (cellKey t i j) (BitVec.ofNat 32 v) }
/-- The tile and column of a plane's column (R158). -/
def Core.planeCell (c : Core) (plane i j : Nat) : Nat := c.cell (6 * plane + j / 64) i (j % 64)

/-- Element k of a packed operand read through `rd`, its scale byte through `sc` (R48, R50, R160). -/
def packedElem (f : XFmt) (rd sc : Nat → Nat) (k : Nat) : FV :=
  let n (o len : Nat) : Nat := (List.range len).foldl (fun v i => v + rd (o + i) * 256 ^ i) 0
  match f with
  | .bf16 => BF16.decode (n (2 * k) 2)
  | .fp16 => FP16.decode (n (2 * k) 2)
  | .e4m3 => E4M3.decode (rd k)
  | .e5m2 => E5M2.decode (rd k)
  | .i8 => FV.ofInt (signExt (rd k) 8)
  | .e2m1 => E2M1.decode (field (rd (k / 2)) (4 * (k % 2)) 4)
  | .mxfp4 => mxVal (field (rd (k / 2)) (4 * (k % 2)) 4) (sc (k / 32))
  | .sx7 | .sx4 | .sx2 => (sxDecode f.sxM (n (f.sxBytes * (k / 16)) f.sxBytes)).getD (k % 16) .nan
  | _ => .nan

/-- Element (m, k) of an A or Q operand in the scratchpad, and (j, k) of a B operand in the column store (R160). -/
def Core.aElem (c : Core) (d : BitVec 512) (m k : Nat) : FV :=
  packedElem (tdFmt d) (fun o => (Mem.read c.ram (tdBase d + m * tdStride d + o)).toNat)
    (fun o => (Mem.read c.ram (tdScale d + m * ceilDiv (tdK d) 32 + o)).toNat) k
def Core.bElem (c : Core) (d : BitVec 512) (j k : Nat) : FV :=
  packedElem (tdFmt d) (fun o => (Mem.read c.col (j * 65536 + tdBase d + o)).toNat)
    (fun o => (Mem.read c.col (j * 65536 + tdScale d + o)).toNat) k

/-- The exact term of a cell operation (R65), and whether it made a NaN. -/
def cellTerm (op : CellOp) (a b : FV) : FV × Bool :=
  match op with
  | .madd | .maxp => FV.mul a b
  | .abda => let r := FV.sub a b; (r.1.abs, r.2)
  | .sqda => let r := FV.sub a b; ((FV.mul r.1 r.1).1, r.2)

/-- One step of a floating cell (R65, R169): its new code and its flags (of, for a finite value that rounds to an infinity, and nv). A product 0 · ∞ raises nv beside a NaN, and MAXP
ranks +0 above −0 (log entry 83). -/
def cellStep (op : CellOp) (acc : Nat) (ps : List (FV × FV)) : Nat × Flags :=
  let x := FP32.decode acc
  let ts := ps.map fun p => cellTerm op p.1 p.2
  let made := ts.any fun t => t.2
  let r : FV × Bool :=
    match op with
    | .maxp =>
      if x.isNan || ts.any (fun t => t.1.isNan) then (.nan, made)
      else (ts.foldl (fun m t => if FV.below m t.1 then t.1 else m) x, false)
    | _ => ts.foldl (fun s t => let v := FV.add s.1 t.1; (v.1, s.2 || v.2)) (x, made)
  let v := arith FP32 r.2 r.1
  (v.1, (v.2 &&& fOf) ||| (if r.2 then fNv else 0))

/-- One step of an I32 cell (R65). -/
def cellStepI (op : CellOp) (acc : Nat) (ps : List (Int × Int)) : Nat :=
  let t (p : Int × Int) : Int :=
    match op with
    | .madd | .maxp => p.1 * p.2
    | .abda => ((p.1 - p.2).natAbs : Int)
    | .sqda => (p.1 - p.2) * (p.1 - p.2)
  match op with
  | .maxp => wrap 32 (ps.foldl (fun m p => if m < t p then t p else m) (signExt acc 32))
  | _ => wrap 32 (ps.foldl (fun s p => s + t p) (signExt acc 32))

/-- A cell operation by its code (R32). -/
def cellOpOf (n : Nat) : CellOp :=
  match n with
  | 0 => .madd
  | 1 => .abda
  | 2 => .sqda
  | _ => .maxp

/-- An exact value over 2^300, where every product of array elements lies on the grid (R171). -/
def FV.fixed : FV → Option Int
  | .fin s n d => some ((if s then -1 else 1) * ((n * 2 ^ 300 / d : Nat) : Int))
  | _ => none

/-- The whole number an I8 element or cell stands for. -/
def FV.int : FV → Int
  | .fin s n _ => if s then -(n : Int) else n
  | _ => 0

/-- Steps of an MMA (R161). -/
def HEntry.w (h : HEntry) : Nat := min (rate (tdFmt h.ta)) (rate (tdFmt h.tb))
def HEntry.steps (h : HEntry) : Nat := ceilDiv (tdK h.ta) h.w

/-- The bytes that elements k0 to k1 − 1 of a packed operand take: offset and length (R48, R50, R160). -/
def elemBytes (f : XFmt) (k0 k1 : Nat) : Nat × Nat :=
  match f with
  | .bf16 | .fp16 => (2 * k0, 2 * (k1 - k0))
  | .e2m1 | .mxfp4 => (k0 / 2, ceilDiv k1 2 - k0 / 2)
  | .sx7 | .sx4 | .sx2 => (f.sxBytes * (k0 / 16), f.sxBytes * (ceilDiv k1 16 - k0 / 16))
  | _ => (k0, k1 - k0)

/-- The aligned 128-byte granules that step s of an MMA uses: twice the index, plus 1 in the column store (R250). -/
def HEntry.granules (h : HEntry) (s : Nat) : List Nat :=
  let K := tdK h.ta
  let k0 := h.w * s
  let k1 := min K (k0 + h.w)
  let span (space a len : Nat) : List Nat := (List.range ((a + len - 1) / 128 + 1 - a / 128)).map fun i => 2 * (a / 128 + i) + space
  let operand (space : Nat) (d : BitVec 512) (base scale : Nat) : List Nat :=
    let b := elemBytes (tdFmt d) k0 k1
    span space (base + b.1) b.2 ++ (if tdFmt d = .mxfp4 then span space (scale + k0 / 32) ((k1 - 1) / 32 + 1 - k0 / 32) else [])
  ((List.range (tdRows h.ta)).flatMap fun m => operand 0 h.ta (tdBase h.ta + m * tdStride h.ta) (tdScale h.ta + m * ceilDiv K 32)) ++
  ((List.range (tdCols h.tb)).flatMap fun j =>
    operand 1 h.tb ((tdCol h.tb + j) * 65536 + tdBase h.tb) ((tdCol h.tb + j) * 65536 + tdScale h.tb))

/-- The step that reads its operands next, and whether one is left before the next stop point (R189, R250): of an MMA's group of 64, or
of an ATTN's page, whose scores take Q through the K steps. -/
def HEntry.nextRead (h : HEntry) : Nat := (if h.op = 8 then 0 else h.pos) + h.read
def HEntry.reads (h : HEntry) : Bool :=
  if h.op = 8 then h.staged.isSome && decide (h.read < h.steps)
  else (h.op == 2 || h.op == 3) && decide (h.read < min 64 (h.steps - h.pos))

/-- The next step of a group reads its operands: a granule read before in the group is not read again (R250). -/
def HEntry.readOn (h : HEntry) (c : Core) : HEntry :=
  { h with read := h.read + 1
           kept := (h.granules h.nextRead).foldl (fun t g =>
             if (Tab.get none t g).isSome then t
             else Tab.set none t g (some (Mem.readBytes (if g % 2 = 0 then c.ram else c.col) (g / 2 * 128) 128))) h.kept }

/-- The scratchpad and the column store as an entry reads them: the granules it keeps, all else as it stands (R250). -/
def Core.asRead (c : Core) (h : HEntry) : Core :=
  h.kept.foldl (fun c e =>
    match e.2 with
    | none => c
    | some bs =>
      if e.1 % 2 = 0 then { c with ram := Mem.writeBytes c.ram (e.1 / 2 * 128) bs }
      else { c with col := Mem.writeBytes c.col (e.1 / 2 * 128) bs }) c

/-- Steps pos to pos + n − 1 of an MMA on the cells of its tiles, with its residues (R169, R171); Kt is kept for each row (log
entry 85). -/
def Core.mmaSteps (c : Core) (h : HEntry) (n : Nat) : Core × Flags :=
  let w := h.w
  let K := tdK h.ta
  let i8 := tdFmt h.ta == .i8
  let plane := h.tile / 6
  let steps := (List.range n).map fun s => h.pos + s
  let zero : FV := .fin false 0 1
  let c0 := c.asRead h
  let bs := (List.range (tdCols h.tb)).map fun jj =>
    steps.map fun s => (List.range w).map fun i => let k := w * s + i; if k < K then c0.bElem h.tb (tdCol h.tb + jj) k else zero
  (List.range (tdRows h.ta)).foldl (fun r i =>
    let as := steps.map fun s => (List.range w).map fun x => let k := w * s + x; if k < K then c0.aElem h.ta i k else zero
    let r := bs.zipIdx.foldl (fun (r : Core × Flags) bj =>
      let j := tdCol h.tb + bj.2
      let acc := r.1.planeCell plane i j
      let v := (steps.zip (as.zip bj.1)).foldl (fun (v : Nat × Flags) e =>
        let op := cellOpOf (field h.pat.toNat (2 * (e.1 % 16)) 2)
        if i8 then (cellStepI op v.1 ((e.2.1.zip e.2.2).map fun p => (p.1.int, p.2.int)), v.2)
        else
          let q := cellStep op v.1 (e.2.1.zip e.2.2)
          (q.1, v.2 ||| q.2)) (acc, 0)
      (r.1.setCell (6 * plane + j / 64) i (j % 64) v.1, r.2 ||| v.2)) r
    if !h.ck then r
    else
      (h.tileList.foldl (fun c t =>
        let key := t * 256 + i
        let old := Tab.get (0, 0, 0, false) c.resid key
        let cols := bs.zipIdx.filter fun b => (tdCol h.tb + b.2) / 64 + 6 * plane == t
        let ps := (cols.map fun b => (as.zip b.1).map fun e => (e.1.zip e.2).map fun p => (FV.mul p.1 p.2).1).flatten.flatten
        let nums := ps.map FV.fixed
        let new : Resid :=
          (nums.foldl (fun x v => x + v.getD 0) old.1, nums.foldl (fun x v => x + (v.getD 0).natAbs) old.2.1, old.2.2.1 + n,
            old.2.2.2 || nums.any Option.isNone)
        { c with resid := Tab.set (0, 0, 0, false) c.resid key new }) r.1, r.2)) (c, 0)

/-- Tiles zeroed: cells, residues (R169 .z, R172). -/
def Core.zeroTiles (c : Core) (ts : List Nat) : Core :=
  { c with cells := Tab.keep (fun k _ => !ts.contains (k / 16384)) c.cells
           resid := Tab.keep (fun k _ => !ts.contains (k / 256)) c.resid }

/-- The check of one row of a tile at a drain (R171): none when its outcome is not fixed, because a term was not finite or a cell of
the row no longer is (log entry 16). -/
def Core.rowCheck (c : Core) (t i : Nat) : Option Bool :=
  let r := Tab.get (0, 0, 0, false) c.resid (t * 256 + i)
  let cells := (List.range 64).map fun j => c.cell t i j
  if c.tInt.getLsbD t then
    let S := cells.foldl (fun s v => s + signExt v 32) 0
    some (!r.2.2.2 && r.1 % 2 ^ 300 == 0 && wrap 32 S == wrap 32 (r.1 / 2 ^ 300))
  else
    let vs := cells.map fun v => (FP32.decode v).fixed
    if r.2.2.2 || vs.any Option.isNone then none
    else
      let S : Int := vs.foldl (fun (s : Int) v => s + v.getD 0) 0
      let C : Int := r.1
      let B : Nat := r.2.1
      let K : Nat := r.2.2.1
      -- |S − C| ≤ (Kt + 64) 2⁻²³ B + 2⁻¹⁴³, all over 2^300
      some (Nat.ble ((S - C).natAbs * 2 ^ 23) ((K + 64) * B + 2 ^ 180))

/-- One row of one tile converted (R173, R174): its bytes as a number, its flags, source values and exact results. -/
def drainRow (f : XFmt) (int : Bool) (cells : List Nat) : Nat × Flags × List FV × List FV :=
  if int then
    let xs := cells.map fun v => signExt v 32
    let r := xs.map fun x => clampI (intMin f) (intMax f) x
    (packNat f.width (r.map (wrap f.width)), (if xs = r then 0 else fSat), xs.map FV.ofInt, r.map FV.ofInt)
  else
    let xs := cells.map FP32.decode
    match f with
    | .mxfp4 =>
      let gs := chunks 32 2 xs
      let es := gs.map scaleMX
      let q := (gs.zip es).map fun g => g.1.map fun x => quantMX x g.2
      let vs := ((q.zip es).map fun g => g.1.map fun c => mxVal c.1 g.2).flatten
      let nx : Flags := if (xs.zip vs).any (fun e => differs e.1 e.2) then fNx else 0
      (packNat 4 (q.flatten.map (·.1)) + 2 ^ 256 * packNat 8 es, orFlags q.flatten ||| nx, xs, vs)
    | .sx7 | .sx4 | .sx2 =>
      let bl := (chunks 16 4 xs).map (quantSX f.sxM)
      let vs := (bl.map fun b => sxDecode f.sxM b.1).flatten
      let nx : Flags := if (xs.zip vs).any (fun e => differs e.1 e.2) then fNx else 0
      (packNat (8 * f.sxBytes) (bl.map (·.1)), orFlags bl ||| nx, xs, vs)
    | _ =>
      match f.float with
      | none => (0, 0, [], [])
      | some g =>
        let q := xs.map (satTo g false)
        (packNat g.width (q.map (·.1)), orFlags q, xs, q.map fun c => g.decode c.1)

/-- The encoded rows of a drain with a codec: the map, then the buffer (R175). -/
def codecBuffer (ceil : Nat) (out : List Byte) : List Byte × Nat :=
  let rows := (chunks 256 (out.length / 256 + 1) out).map (codecRow ceil)
  let offs := (rows.foldl (fun (a : List Nat × Nat) r => (a.1 ++ [a.2 / 8], a.2 + r.length)) ([], 0)).1
  let buf := rows.flatten
  (padTo 256 ((offs.map fun o => natBytes 2 o).flatten) ++ buf, buf.length)

/-- Whether an entry was issued in the segment that its context is in (R166). -/
def State.entryInSeg (s : State) (g : Nat) (h : HEntry) : Bool := (s.ctx g).seg.any fun q => decide (q.firstEntry ≤ h.id)

/-- A change an entry makes to astat, the drain statistics or the last lengths: one issued before the open segment makes it for good
(R68, R354). -/
def State.tally (s : State) (g : Nat) (h : HEntry) (f : Aside → Aside) : State := s.updCtx g (Ctx.tally (s.entryInSeg g h) f)

/-- Bits of astat set (R188). -/
def State.orStat (s : State) (g : Nat) (h : HEntry) (b : BitVec 7) : State := s.tally g h fun x => { x with astat := x.astat ||| b }

/-- An error that the boom detects: a data error of the segment the entry was issued in, else a bit of astat (R177, R188, R355). -/
def State.boomError (s : State) (g : Nat) (h : HEntry) (bit : BitVec 7) : State :=
  if s.entryInSeg g h then s.updCtx g fun x => { x with seg := x.seg.map fun q => { q with dataErr := true } } else s.orStat g h bit

/-- A row of a tile fails its check (R177): outside a segment HEALTH counts the mismatch. -/
def State.rowFails (s : State) (g : Nat) (h : HEntry) : State :=
  let s' := s.boomError g h 32#7
  if s.entryInSeg g h then s' else { s' with healthReg := { s'.healthReg with corrected := min (s'.healthReg.corrected + 1) 255 } }

/-- A residue error of the boom as an entry works (R188, R355): one that stands at the core is met, and stands no more. -/
def State.meetResid (s : State) (k : Nat) (h : HEntry) : State :=
  if (s.core k).boomErr then (s.updCore k fun c => { c with boomErr := false }).boomError (4 * k + h.c) h 64#7 else s

/-- MDRAIN (R173 to R177). -/
def State.runDrain (s : State) (k : Nat) (h : HEntry) : State :=
  let g := 4 * k + h.c
  let c := s.core k
  let f := xfmtOf h.fmt
  let ts := h.tileList
  let rows := (List.range 256).map fun i => ts.map fun t => drainRow f (c.tInt.getLsbD t) ((List.range 64).map fun j => c.cell t i j)
  let w := rowBytesOf f
  let out := (rows.map fun r => (r.map fun d => natBytes w d.1).flatten).flatten
  let fl := rows.flatten.foldl (fun a d => a ||| d.2.1) 0
  let (bytes, len) := if h.codec = 0 then (out, 0) else codecBuffer h.codec out
  let s := s.updCore k fun c => { c with ram := Mem.writeBytes c.ram h.addr bytes }
  let st : BitVec 7 := (if fl &&& fSat != 0 then 8#7 else 0) ||| (if fl &&& fNx != 0 then 1#7 else 0)
  let s := s.tally g h fun x => { x with astat := x.astat ||| st, lastLen := if h.codec = 0 then x.lastLen else BitVec.ofNat 64 len }
  let s := if h.stat then
      s.tally g h fun x =>
        let p := rows.flatten.foldl (fun p d => statRow p d.2.2.1 d.2.2.2) (x.drainSum, x.drainCnt)
        { x with drainSum := p.1, drainCnt := p.2 }
    else s
  if !h.ck then s
  else
    ts.foldl (fun s t =>
      if !c.resValid.getLsbD t then s.orStat g h 16#7
      else
        (List.range 256).foldl (fun (s : State) i =>
          match c.rowCheck t i with
          | some ok => if ok then s else s.rowFails g h
          | none => if Config.freeBool s.freeCtr then s.tick.rowFails g h else s.tick) s) s

/-- The carry of a row: m, l and status (R158). -/
def Core.bmOf (c : Core) (p i : Nat) : Nat := (Tab.get 0 c.bm (p * 256 + i)).toNat
def Core.blOf (c : Core) (p i : Nat) : Nat := (Tab.get 0 c.bl (p * 256 + i)).toNat
def Core.stOf (c : Core) (p i : Nat) : Nat := Tab.get 0 c.status (p * 256 + i)
def Core.putCarry (c : Core) (p i m l st : Nat) : Core :=
  { c with bm := Tab.set 0 c.bm (p * 256 + i) (BitVec.ofNat 32 m), bl := Tab.set 0 c.bl (p * 256 + i) (BitVec.ofNat 32 l)
           status := Tab.set 0 c.status (p * 256 + i) st }

def negInf : Nat := 0xFF800000
def one32 : Nat := 0x3F800000

/-- SEXP of one cell (R178). A maximum that is NaN gives the canonical NaN without a flag (log entry 85). -/
def sexpCell (cell f bm st : Nat) : Nat × Flags :=
  let t := FV.mul (FP32.decode cell) (FP32.decode f)
  if st = 2 ∨ t.1.isNan then (FP32.nan, if t.2 then fNv else 0)
  else if bm = negInf then (0, 0)
  else
    match FP32.decode bm with
    | .inf _ => (if t.1 = .inf false then one32 else 0, 0)
    | .nan => (FP32.nan, 0)
    | _ =>
      let x := fFma FP32 cell f (fNeg FP32 bm)
      let y := exp2 x.1
      (y.1, x.2 ||| y.2)

/-- NORM of one cell (R178). -/
def normCell (cell bl st : Nat) : Nat × Flags :=
  if st = 2 then (FP32.nan, 0)
  else if (FP32.decode bl).isZero then (0, 0)
  else let r := rcp bl; let v := fMul FP32 cell r.1; (v.1, r.2 ||| v.2)

/-- MBOOM (R178). -/
def State.runBoom (s : State) (k : Nat) (h : HEntry) : State :=
  let g := 4 * k + h.c
  let p := h.tile / 6
  let cols := 64 * h.cnt
  let c := s.core k
  let cellAt (c : Core) (i j : Nat) : Nat := c.cell (h.tile + j / 64) i (j % 64)
  let fac (i : Nat) : Nat := Mem.readN c.ram (h.addr + 4 * i) 4
  let mapCells (f : Nat → Nat → Nat → Nat × Flags) : State :=
    let r := (List.range 256).foldl (fun r i => (List.range cols).foldl (fun (r : Core × Flags) j =>
      let v := f i j (cellAt c i j)
      (r.1.setCell (h.tile + j / 64) i (j % 64) v.1, r.2 ||| v.2)) r) (c, 0)
    (s.setCore k r.1).orStat g h (astatOf r.2)
  let rowOut (op : Nat → Nat → Nat × Flags) : State :=
    let rs := (List.range 256).map fun i => reduce .fp32 op ((List.range cols).map fun j => cellAt c i j)
    let s := s.updCore k fun c => { c with ram := Mem.writeBytes c.ram h.addr ((rs.map fun r => natBytes 4 (r.1.getLastD 0)).flatten) }
    s.orStat g h (astatOf (rs.foldl (fun f r => f ||| r.2) 0))
  match h.sub with
  | 0 => rowOut (maxLane .fp32)
  | 1 => rowOut (addLane .fp32)
  | 2 => mapCells fun i _ v => fMul FP32 v (fac i)
  | 3 => mapCells fun _ j v => fMul FP32 v (fac j)
  | 4 => mapCells fun i _ v => sexpCell v (fac 0) (c.bmOf p i) (c.stOf p i)
  | 5 =>
    let s := mapCells fun i _ v => normCell v (c.blOf p i) (c.stOf p i)
    s.updCore k fun c => { c with status := (List.range 256).foldl (fun t i =>
      if c.stOf p i ≠ 2 ∧ (FP32.decode (c.blOf p i)).isZero then Tab.set 0 t (p * 256 + i) 1 else t) c.status }
  | 6 => s.updCore k fun c => (List.range 256).foldl (fun c i => c.putCarry p i negInf 0 0) c
  | _ => s.updCore k fun c =>
      { c with ram := Mem.writeBytes c.ram h.addr ((List.range 256).map fun i => BitVec.ofNat 8 (c.stOf p i)) }

/-- ACARRY (R186). -/
def State.runCarry (s : State) (k : Nat) (h : HEntry) : State :=
  let p := h.tile / 6
  let c := s.core k
  if h.sub = 0 then
    let v := packRow 32 ((List.range 64).map fun i => if h.z then c.blOf p (64 * h.cnt + i) else c.bmOf p (64 * h.cnt + i))
    s.updCtx (4 * k + h.c) fun x => x.landKey (s.entryInSeg (4 * k + h.c) h) (rowKey h.dest) v.toNat none
  else
    s.updCore k fun c => (List.range 64).foldl (fun c i =>
      let v := (lanes h.row 32).getD i 0
      let r := 64 * h.cnt + i
      if h.z then c.putCarry p r (c.bmOf p r) v (c.stOf p r) else c.putCarry p r v (c.blOf p r) (c.stOf p r)) c

/-- A mask of tiles as a word. -/
def tileMask (ts : List Nat) : Word := BitVec.ofNat 64 (((List.range 12).filter fun t => ts.contains t).foldl (fun m t => m + 2 ^ t) 0)

/-- MSTAT (R187). -/
def State.runStat (s : State) (k : Nat) (h : HEntry) : State :=
  let g := 4 * k + h.c
  let x := s.ctx g
  let c := s.core k
  let mine := c.halyard.filter fun e => e.c == h.c && e.id != h.id
  let v : Word :=
    match h.sub with
    | 0 | 1 => x.astat.setWidth 64
    | 2 => x.drainSum
    | 3 | 4 => x.drainCnt
    | 5 => x.lastLen
    | 6 => x.lastPages
    | 7 => BitVec.ofNat 64 mine.length
    | 8 => tileMask ((List.range 12).filter fun t => Tab.get none c.tOwner t == some h.c)
    | _ => tileMask (mine.map HEntry.tiles).flatten
  let s := s.tally g h fun x =>
    { x with astat := if h.sub = 1 then 0 else x.astat
             drainSum := if h.sub = 4 then 0 else x.drainSum
             drainCnt := if h.sub = 4 then 0 else x.drainCnt }
  s.updCtx g fun x => x.landKey (s.entryInSeg g h) (sKey h.dest) v.toNat none

/-- The page index an ATTN stands at: the first page's, and the pages done (R181). -/
def HEntry.attnPi (h : HEntry) : Nat := h.pi0 + h.pos

/-- An ATTN's next page, if it has one (R181): it stops at the sequence's page count. -/
def State.attnNext (s : State) (k : Nat) (h : HEntry) : Option (Nat × Store × Nat × Nat) :=
  let p := s.partOf k
  match s.handle p h.hnd.toNat with
  | none => none
  | some (id, t, slot) =>
    let first := field h.range.toNat 23 23
    let last := field h.range.toNat 0 23
    let pi := h.attnPi
    if first ≤ last ∧ pi ≤ last / t.T ∧ pi < s.seqN p t slot 12 4 then some (id, t, slot, pi) else none

/-- Whether an ATTN's range holds no further page (R181). -/
def State.attnDone (s : State) (k : Nat) (h : HEntry) : Bool :=
  let first := field h.range.toNat 23 23
  let last := field h.range.toNat 0 23
  match s.storeOf (s.partOf k) (field h.hnd.toNat 26 6) with
  | some t => decide (last < first) || decide (last / t.T < h.attnPi)
  | none => decide (last < first)

/-- Whether the handle's generation stands (R184). -/
def State.attnLive (s : State) (k : Nat) (h : HEntry) : Bool := (s.handle (s.partOf k) h.hnd.toNat).isSome

/-- The KV_FAULT reason of a page entry at its boundary, 0 for none (R182). -/
def State.pageFault (s : State) (p : Nat) (t : Store) (e : Nat) : Nat :=
  if !peValid e then 5
  else if s.inTransit p t e then 6
  else if t.promote ∧ (peLoc e = 1 ∨ peLoc e = 4) then 7
  else 0

/-- R183 on one row: its scores (none masked), K scale, V scale, V elements by slot and dimension. The new m, l, status, O. -/
def attnRow (m l st : Nat) (o : List Nat) (scores : List (Option Nat)) (sigma sk sv : FV) (v : Nat → Nat → FV) :
    (Nat × Nat × Nat × List Nat) × Flags :=
  if st = 2 then ((m, l, st, o), 0)
  else
    let ss : List (Nat × Flags) := scores.map fun x =>
      match x with
      | none => (negInf, 0)
      | some c =>
        let a := FV.mul (FP32.decode c) sigma
        let b := FV.mul a.1 sk
        arith FP32 (a.2 || b.2) b.1
    let f0 := orFlags ss
    let s := ss.map (·.1)
    if s.any fun x => (FP32.decode x).isNan then ((FP32.nan, FP32.nan, 2, o.map fun _ => FP32.nan), f0)
    else
      let mp := s.foldl (fun a b => fMaxNum FP32 a b) negInf
      let mn := fMaxNum FP32 m mp
      let isPos := fun x => FP32.decode x == .inf false
      let weight (x : Nat) : Nat × Flags :=
        let d := fSub FP32 x mn
        let r := exp2 d.1
        (r.1, d.2 ||| r.2)
      let al : Nat × Flags :=
        if mn = negInf then (one32, 0)
        else if m = negInf then (0, 0)
        else if isPos mn then (if isPos m then one32 else 0, 0)
        else weight m
      let ps : List (Nat × Flags) := s.map fun x =>
        if x = negInf then (0, 0)
        else if isPos mn then (if isPos x then one32 else 0, 0)
        else weight x
      let l0 := fMul FP32 l al.1
      let lr := ps.foldl (fun (a : Nat × Flags) p => let r := fAdd FP32 a.1 p.1; (r.1, a.2 ||| r.2)) (l0.1, l0.2)
      let pt : List (FV × Flags) := ps.map fun p =>
        let x := FV.mul (FP32.decode p.1) sv
        (BF16.decode (satTo BF16 false x.1).1, if x.2 then fNv else 0)
      let os := o.zipIdx.map fun od =>
        let o0 := fMul FP32 od.1 al.1
        (scores.zip pt).zipIdx.foldl (fun (a : Nat × Flags) e =>
          -- a masked slot adds an exact zero (log entry 84)
          let r := cellStep .madd a.1 [(e.1.2.1, if e.1.1.isNone then .fin false 0 1 else v e.2 od.2)]
          (r.1, a.2 ||| r.2)) (o0.1, o0.2)
      ((mn, lr.1, st, os.map (·.1)), f0 ||| al.2 ||| orFlags ps ||| lr.2 ||| pt.foldl (fun f p => f ||| p.2) 0 ||| orFlags os)

/-- Where a page's buffer lies in each slice (R242). -/
def stagingAt (plane pi : Nat) : Nat := 0xF000 + plane * 0x800 + pi % 2 * 0x400

/-- The element format of a page by its code (R242, R267). -/
def Store.pageFmt (t : Store) (fmt : Nat) : XFmt := match fmt with | 0 => t.nfmt | 1 => .e4m3 | _ => .mxfp4

/-- The code of an element of a block, and its scale byte (R264). -/
def State.kvCode (s : State) (p : Nat) (t : Store) (b : Blk) (l half h u d : Nat) : Nat :=
  let ix := t.elemIx half h u d
  match b.fmt with
  | 0 => if t.nfmt = .e4m3 then s.blkN p t b 0 l ix 1 else s.blkN p t b 0 l (2 * ix) 2
  | 1 => s.blkN p t b 0 l ix 1
  | _ => field (s.blkN p t b 0 l (ix / 2) 1) (4 * (ix % 2)) 4

/-- A page resolved and staged (R242, R243, R249): token u's K at slice s0 + u, dimension d's V at slice d, each with its E8M0 scale
bytes; the walker's reading of the block sets its age (R269). -/
def State.stagePage (s : State) (k : Nat) (h : HEntry) (t : Store) (slot pi : Nat) : State :=
  let p := s.partOf k
  let e := s.pageE p t slot pi
  match s.blockOf p t e with
  | none => s
  | some b =>
    let layer := field h.range.toNat 56 8
    let head := field h.range.toNat 50 6
    let f := t.pageFmt b.fmt
    let w := t.ebits b.fmt
    let at_ (slice off : Nat) : Nat := slice * 65536 + stagingAt (h.tile / 6) pi + off
    let bytes (cs : List Nat) : List Byte := natBytes (w * cs.length / 8) (packNat w cs)
    let scale (half u d : Nat) : Byte := BitVec.ofNat 8 (s.blkN p t b 2 layer (t.elemIx half head u d / 32) 1)
    let ks : List (Nat × List Byte) := (List.range t.T).flatMap fun u =>
      let slice := 64 * ceilDiv t.D 64 + u
      (at_ slice 0, bytes ((List.range t.D).map fun d => s.kvCode p t b layer 0 head u d)) ::
      (if f = .mxfp4 then [(at_ slice 0x300, (List.range (t.D / 32)).map fun g => scale 0 u (32 * g))] else [])
    let vs : List (Nat × List Byte) := (List.range t.D).flatMap fun d =>
      (at_ d 0x200, bytes ((List.range t.T).map fun u => s.kvCode p t b layer 1 head u d)) ::
      (if f = .mxfp4 then [(at_ d 0x300, (List.range t.T).map fun u => scale 1 u d)] else [])
    let sc (half : Nat) : Nat := if b.fmt = 1 then s.blkN p t b 2 layer (8 * head + 4 * half) 4 else one32
    let st : Staged :=
      { pi := pi, T := t.T, fmt := xfmtNum f, bits := s.maskW p t slot pi &&& s.blkN p t b 1 layer 0 8, fill := peFill e
        spec := s.seqN p t slot 8 4, sk := sc 0, sv := sc 1 }
    let s := s.touch { tag := s.tagOf (4 * k + h.c), p := p } t b
    s.updCore k fun c =>
      { c with col := (ks ++ vs).foldl (fun m e => Mem.writeBytes m e.1 e.2) c.col
               halyard := c.halyard.map fun e => if e.id = h.id then { e with staged := some st } else e }

/-- Elements of a staged page (R243): dimension d of token u's K, token u of dimension d's V. -/
def Core.stagedK (c : Core) (plane : Nat) (st : Staged) (D u d : Nat) : FV :=
  let a := (64 * ceilDiv D 64 + u) * 65536 + stagingAt plane st.pi
  packedElem (xfmtOf st.fmt) (fun o => (Mem.read c.col (a + o)).toNat) (fun g => (Mem.read c.col (a + 0x300 + g)).toNat) d
def Core.stagedV (c : Core) (plane : Nat) (st : Staged) (d u : Nat) : FV :=
  let a := d * 65536 + stagingAt plane st.pi
  packedElem (xfmtOf st.fmt) (fun o => (Mem.read c.col (a + 0x200 + o)).toNat) (fun _ => (Mem.read c.col (a + 0x300 + u)).toNat) u

/-- ATTN_PAGE_END (R181, R183): the staged page summed. Masked tokens and blank slots form no score, and so no flag (log entry 84). -/
def State.attnPage (s : State) (k : Nat) (h : HEntry) (st : Staged) : State :=
  let g := 4 * k + h.c
  let causal := h.range.getLsbD 47
  let first := field h.range.toNat 23 23
  let last := field h.range.toNat 0 23
  let M := tdRows h.ta
  let D := tdK h.ta
  let gq := tdGroup h.ta
  let masked (r u : Nat) : Bool :=
    let tok := st.T * st.pi + u
    decide (tok < first) || decide (last < tok) || decide (st.spec ≤ tok) || !st.bits.testBit u || decide (st.fill ≤ u) ||
      (causal && decide (last + r / gq + 1 < tok + M / gq))
  let c := s.core k
  let plane := h.tile / 6
  let ks := (List.range st.T).map fun u => (List.range D).map fun d => c.stagedK plane st D u d
  let vs := (List.range st.T).map fun u => (List.range D).map fun d => c.stagedV plane st d u
  let r := (List.range M).foldl (fun (r : Core × Flags) i =>
    let q := (List.range D).map fun d => (c.asRead h).aElem h.ta i d
    let sc := (ks.zipIdx).map fun ku =>
      if masked i ku.2 then (none, 0)
      else
        let v := (q.zip ku.1).foldl (fun (a : Nat × Flags) e => let x := cellStep .madd a.1 [e]; (x.1, a.2 ||| x.2)) (0, 0)
        (some v.1, v.2)
    let o := (List.range D).map fun d => c.planeCell plane i d
    let n := attnRow (c.bmOf plane i) (c.blOf plane i) (c.stOf plane i) o (sc.map (·.1)) (FP32.decode (tdQscale h.ta))
      (FP32.decode st.sk) (FP32.decode st.sv) fun u d => (vs.getD u []).getD d .nan
    let c1 := n.1.2.2.2.zipIdx.foldl (fun c od => c.setCell (6 * plane + od.2 / 64) i (od.2 % 64) od.1) r.1
    (c1.putCarry plane i n.1.1 n.1.2.1 n.1.2.2.1, sc.foldl (fun f x => f ||| x.2) (r.2 ||| n.2))) (c, 0)
  let s := s.setCore k r.1
  let s := s.tally g h fun x => { x with astat := x.astat ||| astatOf r.2, lastPages := BitVec.ofNat 64 (h.pos + 1) }
  s.updCore k fun c =>
    { c with halyard := c.halyard.map fun e => if e.id = h.id then { e with pos := e.pos + 1, staged := none, read := 0, kept := [] } else e }

/-- What an entry writes of tiles and carries, for a segment's tile log (R353). -/
def HEntry.writesTiles (h : HEntry) : List Nat × List Nat :=
  match h.op with
  | 2 | 3 | 5 => (h.tileList, [])
  | 7 => (if 2 ≤ h.sub ∧ h.sub ≤ 5 then h.tileList else [], if h.sub = 5 ∨ h.sub = 6 then [h.tile / 6] else [])
  | 9 => ([], if h.sub = 1 then [h.tile / 6] else [])
  | _ => ([], [])

/-- A segment's logs as one of its entries starts: tiles and carries it will write, and the old rows of its drain (R353). -/
def State.entryLogs (s : State) (k : Nat) (h : HEntry) : State :=
  let g := 4 * k + h.c
  match (s.ctx g).seg with
  | none => s
  | some q =>
    if h.id < q.firstEntry then s
    else
      let c := s.core k
      let w := h.writesTiles
      let q := w.1.foldl (fun (q : Seg) t =>
        if q.tiles.any fun l => !l.isCarry && l.index == t then q else { q with tiles := q.tiles ++ [c.logTile t] }) q
      let q := w.2.foldl (fun (q : Seg) p =>
        if q.tiles.any fun l => l.isCarry && l.index == p then q else { q with tiles := q.tiles ++ [c.logCarry p] }) q
      let hit (u : Undo) : Bool := !u.isRow && u.pending && h.writeRanges.any (rowsMeet (u.index * 256) 256)
      let fill (u : Undo) : Undo :=
        if hit u then { u with old := Mem.readRow c.ram (u.index * 256), pending := false } else u
      let q := { q with undo := q.undo.map fill }
      s.updCtx g fun x => { x with seg := some q }

/-- The first moment of an entry: types and residues as it leaves them, tiles zeroed by .z, the start of an ATTN (R169, R179). -/
def State.startEntry (s : State) (k : Nat) (h : HEntry) : State :=
  let s := s.entryLogs k h
  s.updCore k fun c =>
    let t := (TileSt.mk c.tInt c.tZeroInt c.resValid).after h
    let c1 := { c with tInt := t.int, tZeroInt := t.zeroInt, resValid := t.valid }
    let c2 := if h.op ≤ 3 ∧ h.z then c1.zeroTiles h.tileList else c1
    if h.op = 8 ∧ h.range.getLsbD 46 then
      (List.range (tdRows h.ta)).foldl (fun c i =>
        let c := c.putCarry (h.tile / 6) i negInf 0 0
        (List.range (tdK h.ta)).foldl (fun c d => c.setCell (h.tile + d / 64) i (d % 64) 0) c) c2
    else c2

/-- Lanes of the halyard (R246). -/
def HEntry.onBoom (h : HEntry) : Bool := !(h.op == 2 || h.op == 3 || h.op == 8)

/-- A context's oldest entry, when it may start or go on on a lane (R163, R246, R247): none of a context that is being saved
(R312). -/
def State.candidate (s : State) (k : Nat) (boom : Bool) (ctx : Nat) : Option HEntry :=
  match (s.core k).halyard.find? fun h => h.c == ctx with
  | some h => if h.onBoom == boom && !h.running && !h.held && !(s.ctx (4 * k + ctx)).giving then some h else none
  | none => none

/-- The entry running on a lane. -/
def Core.running (c : Core) (boom : Bool) : Option HEntry := c.halyard.find? fun h => h.running && h.onBoom == boom

/-- The one entry of a core's queue of a given number rewritten. -/
def State.updEntry (s : State) (k id : Nat) (f : HEntry → HEntry) : State :=
  s.updCore k fun c => { c with halyard := c.halyard.map fun e => if e.id = id then f e else e }

/-- An entry gets its lane: its start, the first time. -/
def State.giveLane (s : State) (k : Nat) (h : HEntry) : State :=
  let s := if h.started then s else s.startEntry k h
  s.updEntry k h.id fun e => { e with running := true, started := true }

/-- The lane's next entry after context ctx, in R247's order. -/
def State.nextOn (s : State) (k : Nat) (boom : Bool) (ctx : Nat) (self : Bool) : Option HEntry :=
  ((if self then [1, 2, 3, 4] else [1, 2, 3]).filterMap fun d => s.candidate k boom ((ctx + d) % 4)).head?

/-- A stop point (R189, R247, R312): another context's waiting entry takes the array lane; else the running one goes on, but not
one of a context that is being saved. -/
def State.stopPoint (s : State) (k : Nat) (h : HEntry) : State :=
  let off (s : State) : State := s.updEntry k h.id fun e => { e with running := false }
  match s.nextOn k false h.c false with
  | none => if (s.ctx (4 * k + h.c)).giving then off s else s
  | some n => (off s).giveLane k n

/-- HALYARD_ENTRY_START (R163, R246, R250): an idle lane takes the first context's oldest entry that may start; an MMA or an ATTN
that runs reads the operands of its next step before the stop point. -/
def State.entryStart (s : State) (k : Nat) (boom : Bool) : State :=
  let c := s.core k
  match c.running boom with
  | some h =>
    if h.reads then s.updEntry k h.id fun e => e.readOn c else s
  | none =>
    match (c.halyard.filter fun h => s.candidate k boom h.c == some h).head? with
    | none => s
    | some h => s.giveLane k h

/-- MMA_GROUP_END (R189, R247): 64 steps, then a stop point, after which operands are read anew (R250). -/
def State.groupEnd (s : State) (k : Nat) : State :=
  match (s.core k).running false with
  | none => s
  | some h =>
    if h.op = 8 ∨ h.steps ≤ h.pos + 64 then s
    else
      let r := (s.core k).mmaSteps h 64
      let s := (s.setCore k r.1).orStat (4 * k + h.c) h (astatOf r.2)
      let s := s.updEntry k h.id fun e => { e with pos := e.pos + 64, read := 0, kept := [] }
      (s.meetResid k h).stopPoint k h

/-- The page boundary that a running ATTN is at (R182, R184, R185, R249): a stale generation ends the launch, and so does a page whose
block the walker cannot read (R341; log entry 95); a page fault holds the entry and frees the lane; else the next page is staged. -/
def State.pageBoundary (s : State) (k : Nat) (h : HEntry) : State :=
  let at_ := h.attnPi
  if s.attnDone k h then s
  else if !s.attnLive k h then
    match (s.ctx (4 * k + h.c)).launch with
    | none => s
    | some l => s.endLaunch l 5 0 { code := 5, source := 2, context := 4 * k + h.c, progress := at_ }
  else
    match s.attnNext k h with
    | none => s
    | some (_, t, slot, pi) =>
      match s.pageFault (s.partOf k) t (s.pageE (s.partOf k) t slot pi) with
      | 0 =>
        let p := s.partOf k
        match (s.blockOf p t (s.pageE p t slot pi)).bind fun b => s.layerTrouble p t b (field h.range.toNat 56 8),
            (s.ctx (4 * k + h.c)).launch with
        | some x, some l => s.endLaunch l x.1 0 { code := x.1, source := 2, context := 4 * k + h.c, addr := BitVec.ofNat 64 x.2, progress := at_ }
        | _, _ => s.stagePage k h t slot pi
      | r =>
        let s := s.updEntry k h.id fun e => { e with held := true, fault := r, running := false }
        match s.nextOn k false h.c false with
        | some n => s.giveLane k n
        | none => s

/-- The end of an ATTN's page (R183, R247, R249): the staged page is summed, the next one staged or its fault taken, and the lane may
pass. An ATTN that has no page staged is at the boundary before its next one. -/
def State.pageEnd (s : State) (k : Nat) : State :=
  match (s.core k).running false with
  | none => s
  | some h =>
    if h.op ≠ 8 ∨ ((s.core k).running true).isSome then s
    else if (s.ctx (4 * k + h.c)).giving && h.staged.isNone then s.stopPoint k h
    else
      match h.staged with
      | none => s.pageBoundary k h
      | some st =>
        let s := (s.attnPage k h st).meetResid k h
        let s := s.pageBoundary k { h with pos := h.pos + 1, staged := none }
        match (s.core k).running false with
        | some n => if n.id = h.id then s.stopPoint k n else s
        | none => s

/-- The register that an entry is to write, by key: the row of an ACARRY export, the scalar of an MSTAT (R164). -/
def HEntry.destKey (h : HEntry) : Option Nat :=
  if h.op = 9 ∧ h.sub = 0 then some (rowKey h.dest) else if h.op = 10 then some (sKey h.dest) else none

/-- Whether an entry's destination may land: no fixed-latency write to it issued before is in flight still, nor stands in the record
of the trap whose handler runs, which its ERET puts back in flight (R164, R346, R348). -/
def State.destFree (s : State) (k : Nat) (h : HEntry) : Bool :=
  let c := s.ctx (4 * k + h.c)
  (c.flights.all fun f => f.destKey.isNone || f.destKey != h.destKey) && (h.destKey.all fun d => !c.recDests.contains d)

/-- HALYARD_ENTRY_END (R164): the last of an entry's work, then the lane passes on (R247). -/
def State.entryEnd (s : State) (k : Nat) (boom : Bool) : State :=
  match (s.core k).running boom with
  | none => s
  | some h =>
    let done (s : State) : State :=
      let s := (s.meetResid k h).updCore k fun c => { c with halyard := c.halyard.filter fun e => e.id != h.id }
      let s := s.updCtx (4 * k + h.c) fun x => { x with perfEng := x.perfEng + 1 }
      match s.nextOn k boom h.c true with
      | some n => s.giveLane k n
      | none => s
    match h.op with
    | 2 | 3 =>
      if h.pos + 64 < h.steps then s
      else
        let r := (s.core k).mmaSteps h (h.steps - h.pos)
        done ((s.setCore k r.1).orStat (4 * k + h.c) h (astatOf r.2))
    | 5 => done (s.updCore k fun c => c.zeroTiles h.tileList)
    | 6 => done (s.runDrain k h)
    | 7 => done (s.runBoom k h)
    | 8 =>
      if h.staged.isSome ∨ !(s.attnDone k h || (s.attnLive k h && (s.attnNext k h).isNone)) then s
      else
        -- the score tile's values are not defined for programs after the ATTN (R181)
        let t := h.tile + h.cnt - 1
        let n := s.freeCtr
        let s := s.updCore k fun c => (List.range (tdRows h.ta * 64)).foldl (fun c i =>
          { c with cells := Tab.set 0 c.cells (t * 16384 + i) (Config.freeCell n i) }) c
        done (s.tick.tally (4 * k + h.c) h fun x => { x with lastPages := BitVec.ofNat 64 h.pos })
    | 9 => if s.destFree k h then done (s.runCarry k h) else s
    | _ => if s.destFree k h then done (s.runStat k h) else s

/-- Entries of a handle that wait in the journals of a partition's cores are filed, with those before them (R284). -/
def State.fileHandle (s : State) (p : Nat) (h : Word) : State :=
  (s.partCores p).foldl (fun s k =>
    let j := (s.core k).journal
    let n := j.length - (j.reverse.takeWhile fun e => e.hnd != h).length
    (j.take n).foldl (fun s _ => s.fileHead k) s) s

/-- KV_FAULT_SERVICE (R284, R185): the first held entry of the core is serviced by its reason. -/
def State.serviceFault (s : State) (k : Nat) : State :=
  match (s.core k).halyard.find? fun h => h.held && h.fault != 0 with
  | none => s
  | some h =>
    let p := s.partOf k
    let free (s : State) : State := s.updEntry k h.id fun e => { e with held := false, fault := 0 }
    -- the launch ends with the code of R284, the record holds that of the fault's reason (R185)
    let kill (s : State) (code : Nat) : State :=
      match (s.ctx (4 * k + h.c)).launch with
      | none => s
      | some l => s.endLaunch l code 0 { code := Machine.kvCode h.fault, source := 2, context := 4 * k + h.c, progress := h.attnPi }
    match s.attnNext k h with
    | none => free s
    | some (id, t, slot, pi) =>
      match h.fault with
      | 5 =>
        let s := s.fileHandle p h.hnd
        if peValid (s.pageE p t slot pi) then free s
        else
          -- the page is read as wholly masked
          (free s).updEntry k h.id fun e => { e with staged := some ⟨pi, t.T, xfmtNum .bf16, 0, 0, 0, one32, one32⟩ }
      | 6 => if s.inTransit p t (s.pageE p t slot pi) then s else free s
      | _ =>
        let s := s.endMoves (ctl p) id
        let goal (s : State) : Option Blk := (s.blockOf p t (s.pageE p t slot pi)).filter fun b => b.tier != 0
        match goal s with
        | none => free s
        | some b =>
          match s.promoteBlock p id b with
          | some s => free s
          | none =>
            let s := s.ladder p id
            match goal s with
            | none => free s
            | some b =>
              match s.promoteBlock p id b with
              | some s => free s
              | none => kill s (((s.blkTrouble p t b).map (·.1)).getD 7)

end Sys2Proof.Machine
end

