-- ==== Sys2Proof/Machine/CoreEvents.lean ====
section
/-! DEFINITION. The events of a core: clocks, landings, the halyard's and the engines' progress, translation answers, the debugger, reefing (R14, R83, R132, R136, R163 to R189, R192 to R221, R239, R277, R349, R358). -/

namespace Sys2Proof.Machine

/-- BUNDLE (R13): one clock of a core, with the bundles its contexts fetch. -/
def execBundle (core : BitVec 5) (s : State) : Host.Outcome State Fault Refusal := .next (s.clock core.toNat)

/-- RESULT_LANDS (R14, R21): the due results of a context land. -/
def execResultLands (g : BitVec 7) (s : State) : Host.Outcome State Fault Refusal := .next ((landDue s g.toNat).takePorts g.toNat (portsDue s g.toNat))

/-- CONTEXT_SWITCH (R225, R226): a passing of issue that is under way is made. -/
def execContextSwitch (core : BitVec 5) (s : State) : Host.Outcome State Fault Refusal := .next (s.switch core.toNat)

/-- HALYARD_ENTRY_START (R163, R164, R245). -/
def execHalyardEntryStart (core : BitVec 5) (boom : Bool) (s : State) : Host.Outcome State Fault Refusal :=
  .next (s.entryStart core.toNat boom)

/-- MMA_GROUP_END (R189). -/
def execMmaGroupEnd (core : BitVec 5) (s : State) : Host.Outcome State Fault Refusal := .next (s.groupEnd core.toNat)

/-- ATTN_PAGE_END (R183). -/
def execAttnPageEnd (core : BitVec 5) (s : State) : Host.Outcome State Fault Refusal := .next (s.pageEnd core.toNat)

/-- HALYARD_ENTRY_END (R164). -/
def execHalyardEntryEnd (core : BitVec 5) (boom : Bool) (s : State) : Host.Outcome State Fault Refusal :=
  .next (s.entryEnd core.toNat boom)

/-- KV_FAULT_SERVICE (R185, R284). -/
def execKvFaultService (core : BitVec 5) (s : State) : Host.Outcome State Fault Refusal := .next (s.serviceFault core.toNat)

/-- QSEND_DEFERRED_DELIVER (R221). -/
def execQsendDeferredDeliver (thread : Nat) (s : State) : Host.Outcome State Fault Refusal := .next (s.qsendDeliver thread)

/-- ENGINE_ACCEPT (R192). -/
def execEngineAccept (core : BitVec 5) (s : State) : Host.Outcome State Fault Refusal := .next (s.engAccept core.toNat)

/-- COPY_GRANULE_LANDS (R202). -/
def execCopyGranuleLands (core : BitVec 5) (ch : BitVec 4) (s : State) : Host.Outcome State Fault Refusal :=
  .next (s.granule core.toNat ch.toNat)

/-- ENGINE_THREAD_COMPLETE (R195). -/
def execEngineThreadComplete (thread : Nat) (s : State) : Host.Outcome State Fault Refusal := .next (s.threadRun thread)

/-- PUT_ACK_RETURN (R205). -/
def execPutAckReturn (thread : Nat) (s : State) : Host.Outcome State Fault Refusal := .next (s.putAck thread)

/-- FILER_FILE_ENTRY (R277). -/
def execFilerFileEntry (core : BitVec 5) (s : State) : Host.Outcome State Fault Refusal := .next (s.fileHead core.toNat)

/-- CORE_INVALIDATION (R332): a copy is dropped; a core holding none answers "not held", and nothing changes. -/
def execCoreInvalidation (core : BitVec 5) (line : Nat) (s : State) : Host.Outcome State Fault Refusal :=
  .next (s.dropWi core.toNat line)

/-- WI_COPY_DROP (R330): a core drops a WI copy of its own accord, and the directory is not told. -/
def execWiCopyDrop (core : BitVec 5) (line : Nat) (s : State) : Host.Outcome State Fault Refusal :=
  .next (s.dropWi core.toNat line)

/-- TIMEBASE_TICK (R83, R394). -/
def execTimebaseTick (s : State) : Host.Outcome State Fault Refusal := .next { s with timebase := s.timebase + 1 }

/-- Whether a fixed-latency write of a context to a register is under way (R136). -/
def Ctx.writing (c : Ctx) (key : Nat) : Bool :=
  c.flights.any fun f => ((f.kind == 1 || f.kind == 11) && rowKey f.dest == key) || (f.kind == 3 && sKey f.dest == key)

/-- The mark of a load that landed without its value: poison, or a window cut by a reset; a rerun takes the one logged (R353). -/
def GLoad.mark (l : GLoad) : Option Mark :=
  if l.abort then some (.aborted l.va) else l.poison.map Mark.poisoned

/-- What a load landed with as its segment's load log keeps it (R353). -/
def Ctx.logLoad (c : Ctx) (at_ : Option Nat) (e : LoadLog) : Ctx :=
  match at_ with
  | none => c
  | some i => { c with seg := c.seg.map fun q => { q with loads := setAt q.loads i e } }

/-- A load whose every byte has come lands (R136, R198, R212): its register, what lands beside it, its place in the load log. -/
def State.landLoad (s : State) (l : GLoad) : State :=
  let v := match l.answer with
    | some w => w.toNat
    | none => l.value
  let s := s.updCtx l.g fun c =>
    let c := (c.landKey l.inSeg l.dest v l.mark).logLoad l.logAt ⟨natBytes l.size v, l.mark⟩
    let c := l.also.foldl (fun (c : Ctx) e => c.landKey l.inSeg e.1 e.2.toNat none) c
    { c with regs := { c.regs with wu := l.wu.foldl (fun t e => Tab.set 0 t e.1 e.2) c.regs.wu } }
  { s with loads := s.loads.filter fun x => x.id != l.id }

/-- The write port that a landing row takes, by context and bank (R224). -/
def GLoad.port (l : GLoad) : Option Nat := if l.dest < 256 then some (l.g % 4 * 6 + bankOf l.dest) else none

/-- GLOBAL_LOAD_LANDS (R136, R224): once answered in full, no earlier than every fixed-latency write to its registers, and in a clock in
which its bank's write port is free, which it takes. -/
def execGlobalLoadLands (load : Nat) (s : State) : Host.Outcome State Fault Refusal :=
  match s.loads.find? fun l => l.id == load with
  | none => .next s
  | some l =>
    if l.asked ≠ 0 ∨ (s.ctx l.g).writing l.dest ∨ l.also.any fun e => (s.ctx l.g).writing e.1 then .next s
    else
      match l.port with
      | none => .next (s.landLoad l)
      | some b =>
        if (s.core (l.g / 4)).ports.contains b then .next s
        else .next ((s.landLoad l).updCore (l.g / 4) fun x => { x with ports := b :: x.ports })

/-- WALKER_ANSWER (R132, R351): the oldest walk of a core is answered with the controller's mapping, which its TLB keeps. -/
def execWalkerAnswer (core : BitVec 5) (s : State) : Host.Outcome State Fault Refusal :=
  let k := core.toNat
  match (s.core k).walks with
  | [] => .next s
  | v :: r =>
    let m := Tab.get none (s.part (s.partOf k)).pages v
    .next (s.updCore k fun c => { c with walks := r, tlb := Tab.set none c.tlb v (some m) })

/-- DEBUG_RESUME (R349): an ERET in all but its encoding; a context stopped without a record goes on where it stopped. -/
def execDebugResume (g : BitVec 7) (s : State) : Host.Outcome State Fault Refusal :=
  let n := g.toNat
  if !(s.ctx n).stopped then .next s
  else
    let s := s.updCtx n fun c => { c with stopped := false }
    .next (if (s.ctx n).regs.trapRec = 0 then s else s.leaveTrap n (s.ctx n).regs.pc)

/-- DEBUGGER_ATTACH (R75, R102, R349): a debugger comes or goes, and sets trap.state.step. -/
def execDebuggerAttach (g : BitVec 7) (attach step : Bool) (s : State) : Host.Outcome State Fault Refusal :=
  .next (s.updCtx g.toNat fun c => { c with attached := attach, regs := { c.regs with step := step } })

/-- CORE_REEF (R358). -/
def execCoreReef (core : BitVec 5) (out : Bool) (s : State) : Host.Outcome State Fault Refusal := .next (s.reef core.toNat out)

/-- MAP_CHANGE (R239). -/
def execMapChange (core : BitVec 5) (rows cols : List (BitVec 9)) (ckcol : BitVec 9) (s : State) :
    Host.Outcome State Fault Refusal :=
  .next (s.mapChange core.toNat (rows.map BitVec.toNat) (cols.map BitVec.toNat) ckcol.toNat)

end Sys2Proof.Machine
end

