-- ==== Sys2Proof/Machine/Engine.lean ====
section
/-! DEFINITION. The engine instructions: the meaning of each as the one operation of the bundle that core `turn` issues next (R13). -/

namespace Sys2Proof.Machine

/-- COPY (R200). -/
def execCopy (sa : BitVec 6) (ch : BitVec 4) (s : State) : Host.Outcome State Fault Refusal :=
  issueSingle (.copy sa ch) 7 (copyOp sa ch) s

/-- GATH (R200). -/
def execGath (sa : BitVec 6) (ch : BitVec 4) (s : State) : Host.Outcome State Fault Refusal :=
  issueSingle (.gath sa ch) 7 (gathOp sa ch) s

/-- SCAT (R200). -/
def execScat (sa : BitVec 6) (ch : BitVec 4) (s : State) : Host.Outcome State Fault Refusal :=
  issueSingle (.scat sa ch) 7 (scatOp sa ch) s

/-- PUT (R205). -/
def execPut (sa : BitVec 6) (win : BitVec 10) (s : State) : Host.Outcome State Fault Refusal :=
  issueSingle (.put sa win) 7 (putOp sa win) s

/-- GET (R205). -/
def execGet (sa : BitVec 6) (win : BitVec 10) (s : State) : Host.Outcome State Fault Refusal :=
  issueSingle (.get sa win) 7 (getOp sa win) s

/-- COLL (R206). -/
def execColl (sa : BitVec 6) (s : State) : Host.Outcome State Fault Refusal :=
  issueSingle (.coll sa) 7 (collOp sa) s

/-- SIGNAL (R207). -/
def execSignal (sa sb : BitVec 6) (scope : BitVec 3) (s : State) : Host.Outcome State Fault Refusal :=
  issueSingle (.signal sa sb scope) 7 (signalOp sa sb scope) s

/-- BAR (R208). -/
def execBar (scope : BitVec 3) (id : BitVec 7) (s : State) : Host.Outcome State Fault Refusal :=
  issueSingle (.bar scope id) 7 (barOp scope id) s

/-- LAUNCH (R210). -/
def execLaunch (sa : BitVec 6) (s : State) : Host.Outcome State Fault Refusal :=
  issueSingle (.launch sa) 7 (launchOp sa) s

/-- TAKE (R212). -/
def execTake (sa sb : BitVec 6) (max : BitVec 10) (s : State) : Host.Outcome State Fault Refusal :=
  issueSingle (.take sa sb max) 7 (takeOp sa sb max) s

/-- TRIG (R213). -/
def execTrig (s : State) : Host.Outcome State Fault Refusal :=
  issueSingle (.trig) 7 (trigOp) s

/-- HIST (R214). -/
def execHist (sa sb : BitVec 6) (s : State) : Host.Outcome State Fault Refusal :=
  issueSingle (.hist sa sb) 7 (histOp sa sb) s

/-- HLATCH (R214). -/
def execHlatch (sa : BitVec 6) (s : State) : Host.Outcome State Fault Refusal :=
  issueSingle (.hlatch sa) 7 (hlatchOp sa) s

/-- TOPK (R215). -/
def execTopk (sa : BitVec 6) (s : State) : Host.Outcome State Fault Refusal :=
  issueSingle (.topk sa) 7 (topkOp sa) s

/-- TOPKR (R216). -/
def execTopkr (sa : BitVec 6) (s : State) : Host.Outcome State Fault Refusal :=
  issueSingle (.topkr sa) 7 (topkrOp sa) s

/-- KVAPP (R276). -/
def execKvapp (sa sb : BitVec 6) (s : State) : Host.Outcome State Fault Refusal :=
  issueSingle (.kvapp sa sb) 7 (kvappOp sa sb) s

/-- KVSYNC (R278). -/
def execKvsync (scope : BitVec 3) (s : State) : Host.Outcome State Fault Refusal :=
  issueSingle (.kvsync scope) 7 (kvsyncOp scope) s

/-- KVFORK (R266). -/
def execKvfork (sa sb : BitVec 6) (s : State) : Host.Outcome State Fault Refusal :=
  issueSingle (.kvfork sa sb) 7 (kvforkOp sa sb) s

/-- KVFREE (R265). -/
def execKvfree (sa : BitVec 6) (s : State) : Host.Outcome State Fault Refusal :=
  issueSingle (.kvfree sa) 7 (kvfreeOp sa) s

/-- KVTRIM (R283). -/
def execKvtrim (sa sb : BitVec 6) (s : State) : Host.Outcome State Fault Refusal :=
  issueSingle (.kvtrim sa sb) 7 (kvtrimOp sa sb) s

/-- KVCMPT (R283). -/
def execKvcmpt (sa : BitVec 6) (s : State) : Host.Outcome State Fault Refusal :=
  issueSingle (.kvcmpt sa) 7 (kvcmptOp sa) s

/-- KVPF (R217). -/
def execKvpf (sa sb : BitVec 6) (s : State) : Host.Outcome State Fault Refusal :=
  issueSingle (.kvpf sa sb) 7 (kvpfOp sa sb) s

/-- KVDEM (R281). -/
def execKvdem (sa sb : BitVec 6) (mx : Bool) (s : State) : Host.Outcome State Fault Refusal :=
  issueSingle (.kvdem sa sb mx) 7 (kvdemOp sa sb mx) s

/-- KVLEND (R282). -/
def execKvlend (sa : BitVec 6) (s : State) : Host.Outcome State Fault Refusal :=
  issueSingle (.kvlend sa) 7 (kvlendOp sa) s

/-- KVRSV (R279). -/
def execKvrsv (sa : BitVec 6) (pair : BitVec 3) (s : State) : Host.Outcome State Fault Refusal :=
  issueSingle (.kvrsv sa pair) 7 (kvrsvOp sa pair) s

/-- KVQRY (R217). -/
def execKvqry (sa sb : BitVec 6) (item : BitVec 3) (s : State) : Host.Outcome State Fault Refusal :=
  issueSingle (.kvqry sa sb item) 7 (kvqryOp sa sb item) s

/-- TIME (R219). -/
def execTime (sa : BitVec 6) (s : State) : Host.Outcome State Fault Refusal :=
  issueSingle (.time sa) 7 (timeOp sa) s

/-- PERF (R219). -/
def execPerf (sa : BitVec 6) (ctr : BitVec 8) (s : State) : Host.Outcome State Fault Refusal :=
  issueSingle (.perf sa ctr) 7 (perfOp sa ctr) s

/-- SYSC_VERSION (R220). -/
def execSyscVersion (sa : BitVec 6) (s : State) : Host.Outcome State Fault Refusal :=
  issueSingle (.syscVersion sa) 7 (syscVersionOp sa) s

/-- SYSC_HEALTH (R220). -/
def execSyscHealth (sa : BitVec 6) (s : State) : Host.Outcome State Fault Refusal :=
  issueSingle (.syscHealth sa) 7 (syscHealthOp sa) s

/-- SYSC_BARRIER_SETUP (R220). -/
def execSyscBarrierSetup (sa : BitVec 6) (s : State) : Host.Outcome State Fault Refusal :=
  issueSingle (.syscBarrierSetup sa) 7 (syscBarrierSetupOp sa) s

/-- SYSC_BARRIER_CANCEL (R220). -/
def execSyscBarrierCancel (sa : BitVec 6) (s : State) : Host.Outcome State Fault Refusal :=
  issueSingle (.syscBarrierCancel sa) 7 (syscBarrierCancelOp sa) s

/-- SYSC_RELEASE_HELD (R301). -/
def execSyscReleaseHeld (sa : BitVec 6) (s : State) : Host.Outcome State Fault Refusal :=
  issueSingle (.syscReleaseHeld sa) 7 (syscReleaseHeldOp sa) s

/-- SYSC_CANCEL_HELD (R301). -/
def execSyscCancelHeld (sa : BitVec 6) (s : State) : Host.Outcome State Fault Refusal :=
  issueSingle (.syscCancelHeld sa) 7 (syscCancelHeldOp sa) s

/-- WINREG (R204). -/
def execWinreg (sa sb : BitVec 6) (s : State) : Host.Outcome State Fault Refusal :=
  issueSingle (.winreg sa sb) 7 (winregOp sa sb) s

/-- QSEND (R221). -/
def execQsend (sa sb : BitVec 6) (s : State) : Host.Outcome State Fault Refusal :=
  issueSingle (.qsend sa sb) 7 (qsendOp sa sb) s

/-- SYSC_UNKNOWN_SERVICE (R220). -/
def execSyscUnknownService (sa : BitVec 6) (svc : BitVec 10) (s : State) : Host.Outcome State Fault Refusal :=
  issueSingle (.syscUnknownService sa svc) 7 (syscUnknownServiceOp sa svc) s

end Sys2Proof.Machine
end

