-- ==== Sys2Proof/Machine/StoreEvents.lean ====
section
/-! DEFINITION. The store controllers' events: lends, moves, the ladder, scrubs, promotions, lending pools, puts that land (R258, R259, R271, R274, R275, R280 to R284, R337, R388). -/

namespace Sys2Proof.Machine

/-- A frame that a lender's pool answers with: none when it answers that no frame is offered, else frame and frame size. The
manual does not fix which (log entry 11); a frame that is lent to this package already is not answered with. -/
def State.askFrame (s : State) (chip win : Nat) : State × Option (Nat × Nat) :=
  let n := s.freeCtr
  let f := (Config.freeWord n).toNat % 2 ^ 24
  let size := field (Config.freeWord n).toNat 24 16 * 65536
  let out := s.parts.any fun e => e.2.stores.any fun t => match t.2 with
    | some t => t.lends.any fun x => x.1 == f && x.2.1 == chip && x.2.2.1 == win
    | none => false
  (s.tick, if Config.freeBool n || out then none else some (f, size))

/-- A lend commits (R258, R282): frame taken, block copied, then kind 12: the page remote, the record held once, the local block
released. -/
def State.lendBlock (s : State) (u : Writer) (id : Nat) (slot page : Nat) (b : Blk) (w : PodWindow) (f size : Nat) : State :=
  let nb : Blk := ⟨b.fmt, 0, f, some (w.chip, w.remoteId, size)⟩
  let s := s.updStore u.p id fun t => { t with lends := t.lends ++ [(f, w.chip, w.remoteId, size)] }
  match s.storeOf u.p id with
  | none => s
  | some t =>
    let cls := field (s.meta0 u.p t b) 45 3
    let s := s.moveData u t b nb
    let s := s.kvPutN u (t.metaAt nb) 8 (cls * 2 ^ 45 + 2 ^ 42 + w.chip * 2 ^ 30 + id * 2 ^ 24 + f)
    let s := s.kvPutN u (t.metaAt nb + 8) 8 (field s.timebase.toNat 10 32)
    s.commit u { kind := 12, store := id, what := 1 + 16 + 32, slot := slot, page := page,
                 entry := peOf 2 nb (peFill (s.pageE u.p t slot page)), down := b.ref, up := nb.ref }

/-- KVLEND_RUN (R258, R260, R271, R282): the lend's checks in order, then its commit; its final state waits to be written. -/
def execKvlendRun (thread : Nat) (s : State) : Host.Outcome State Fault Refusal :=
  match s.threads.find? fun t => t.id == thread && t.cmd.op == 24 && t.state == 1 with
  | none => .next s
  | some th =>
    let c := th.cmd
    let p := th.p
    let page := c.n 4 4
    let stop (s : State) (st code : Nat) : Host.Outcome State Fault Refusal := .next (s.threadEnd thread st code 0)
    match s.handle p c.a.toNat with
    | none => stop s 4 5
    | some (id, t, slot) =>
      if c.lost ∨ s.seqN p t slot 12 4 ≤ page then stop s 4 6
      else
        match Tab.get none (s.part p).pod (c.n 8 2) with
        | none => stop s 4 3
        | some w =>
          let e := s.pageE p t slot page
          if !w.up || !s.reach w.chip then stop s 4 3
          else if !(peValid e && (peLoc e == 0 || peLoc e == 1 || peLoc e == 4)) then stop s 3 9
          else
            match s.blockOf p t e with
            | none => stop s 3 9
            | some b =>
              if s.refs p t b ≠ 1 then stop s 3 10
              else if (s.blkTrouble p t b).isSome then stop s 4 (((s.blkTrouble p t b).map (·.1)).getD 4)
              else
                match s.askFrame w.chip w.remoteId with
                | (s, none) => stop s 3 8
                | (s, some (f, size)) =>
                  let nb : Blk := ⟨b.fmt, 0, f, some (w.chip, w.remoteId, size)⟩
                  if size < t.blockB b.fmt then stop s 3 9
                  else if t.n 36 1 = 0 ∨ s.refs p t nb ≠ 0 then stop s 3 8
                  else
                    let s := s.lendBlock (c.writer p) id slot page b w f size
                    .next ((s.threadEnd thread 2 0 0).updThread thread fun t => { t with progress := 1 })

/-- A borrowed frame starts on its way home: the entries that name it read as in transit (R282). -/
def State.transit (s : State) (p id : Nat) (t : Store) (es : List (Nat × Nat × Nat)) (b : Blk) : State :=
  es.foldl (fun s e =>
    s.commit (ctl p) { kind := 10, store := id, what := 1, slot := e.1, page := e.2.1, entry := peOf 3 b (peFill e.2.2) }) s

/-- MOVE_COMMIT (R274, R280 to R284): the next commit of one block's move. A forwarded block has its next holder rewritten, or
without one is released. Else a borrowed frame starts for home, or comes home and stays in transit for want of a block; a block
whose promotion is asked for goes to tier 0; a candidate of the ladder takes its step. No block moves again before the release of
the one it was moved from. -/
def execMoveCommit (p : BitVec 3) (store : BitVec 6) (ref : BitVec 32) (s : State) : Host.Outcome State Fault Refusal :=
  let pn := p.toNat
  let id := store.toNat
  let w := ctl pn
  match s.storeOf pn id with
  | none => .next s
  | some t =>
    let b := t.blkOfRef ref.toNat
    if s.fwd pn t b then
      match s.namers pn t b with
      | e :: _ => .next (s.rewrite w id t b e)
      | [] => .next (s.commit w { kind := 11, store := id, what := 0, down := b.ref })
    else if s.refs pn t b = 0 ∨ (t.moves.any fun r => s.follow pn t (t.blkOfRef r) == b) then .next s
    else if b.far.isSome then
      match (s.namers pn t b).filter fun e => peLoc e.2.2 != 3 with
      | [] => .next ((s.promoteCommit pn id b).getD s)
      | es => .next (s.transit pn id t es b)
    else if (s.part pn).wants.contains (id, ref.toNat) then
      .next (((s.promoteCommit pn id b).getD s).updPart pn fun x => { x with wants := x.wants.filter fun w => w != (id, ref.toNat) })
    else if !t.ladderDue || !s.movable pn t b then .next s
    else
      match t.ladderStep (field (s.meta0 pn t b) 45 3) b with
      | none => .next s
      | some i =>
        match s.popBlock w id i (field (s.meta0 pn t b) 45 3) with
        | none => .next s
        | some (s, nb) => .next (s.moveCommit w id b nb)

/-- LADDER_RUN (R280). -/
def execLadderRun (p : BitVec 3) (store : BitVec 6) (s : State) : Host.Outcome State Fault Refusal :=
  match s.storeOf p.toNat store.toNat with
  | none => .next s
  | some t => .next (if t.ladderOn then s.ladder p.toNat store.toNat else s)

/-- SCRUBBER_RUN (R275): it waits while a filer entry or a store-engine operation of the store is in flight. -/
def execScrubberRun (p : BitVec 3) (store : BitVec 6) (s : State) : Host.Outcome State Fault Refusal :=
  .next (if s.storeBusy p.toNat store.toNat then s.scrubDue p.toNat store.toNat
    else (s.scrub p.toNat store.toNat).updPart p.toNat fun x => { x with scrubs := x.scrubs.filter fun i => i != store.toNat })

/-- CONTROLLER_PROMOTE (R217, R284): a request for a block's promotion is served, the ladder run once if need be; a hint that
finds no block is dropped. -/
def execControllerPromote (p : BitVec 3) (store : BitVec 6) (ref : BitVec 32) (s : State) : Host.Outcome State Fault Refusal :=
  let pn := p.toNat
  let id := store.toNat
  if !(s.part pn).wants.contains (id, ref.toNat) then .next s
  else
    let s := (s.updPart pn fun x => { x with wants := x.wants.filter fun w => w != (id, ref.toNat) }).endMoves (ctl pn) id
    let goal (s : State) : Option Blk :=
      match s.storeOf pn id with
      | none => none
      | some t =>
        let b := t.blkOfRef ref.toNat
        if b.tier = 0 ∨ b.far.isSome ∨ s.refs pn t b = 0 then none else some b
    match goal s with
    | none => .next s
    | some b =>
      match s.promoteBlock pn id b with
      | some s => .next s
      | none =>
        let s := s.ladder pn id
        match goal s with
        | none => .next s
        | some b => .next ((s.promoteBlock pn id b).getD s)

/-- ENGINE_RESET (R272, R275): a record's changes are made in the step that logs it, so that none is left to apply again (log entry
20); the scrubber runs. -/
def execEngineReset (p : BitVec 3) (store : BitVec 6) (s : State) : Host.Outcome State Fault Refusal := execScrubberRun p store s

/-- The window of a partition that is an export registered, up, and granted to a chip with a right (R204; bit 0 read, 1 write). -/
def State.exportFor (s : State) (p win chip right : Nat) : Option PodWindow :=
  match Tab.get none (s.part p).pod win with
  | some w => if !w.imp && w.up && w.rights.testBit right && (w.chip == 0xFFFF || w.chip == chip) then some w else none
  | none => none

/-- An answer or return that this package's controller sends to another chip (R259, R388). -/
def State.tell (s : State) (chip : Nat) (bs : List Byte) : State := { s with outbox := s.outbox ++ [(none, chip, bs)] }

/-- The lending pool of a window replaced. -/
def State.setPool (s : State) (p win : Nat) (l : LendPool) : State :=
  s.updPart p fun x => { x with lendPools := Tab.set none x.lendPools win (some l) }

/-- FRAME_TAKE (R282, R388): a borrower's take message is served from the free stack; all ones answers that none is free. -/
def execFrameTake (p : BitVec 3) (win : BitVec 10) (chip : BitVec 12) (s : State) : Host.Outcome State Fault Refusal :=
  let pn := p.toNat
  match s.exportFor pn win.toNat chip.toNat 1, Tab.get none (s.part pn).lendPools win.toNat with
  | some _, some l =>
    match l.free with
    | f :: r =>
      if l.withdrawn then .next (s.tell chip.toNat (natBytes 4 0xFFFFFFFF))
      else
        .next ((s.setPool pn win.toNat { l with free := r, lent := l.lent ++ [(f, chip.toNat)] }).tell chip.toNat (natBytes 4 f))
    | [] => .next (s.tell chip.toNat (natBytes 4 0xFFFFFFFF))
  | _, _ => .next (s.tell chip.toNat (natBytes 4 0xFFFFFFFF))

/-- The error of a mailbox command that ends (R377): its status, and a notice of kind 6 when asked for. -/
def State.setMail (s : State) (mb : Mbox) (m : Mail) : State :=
  match mb with
  | .pf => { s with mail := m }
  | .vf p => s.updPart p.toNat fun x => { x with mail := m }
def State.mailOf (s : State) : Mbox → Mail
  | .pf => s.mail
  | .vf p => (s.part p.toNat).mail

/-- The shroud a notice of a mailbox names: none on the package ring, else the partition's first (R381). -/
def mboxShroud : Mbox → Nat
  | .pf => 256
  | .vf p => p.toNat

/-- MAILBOX_DONE_NOTICE (R377, R381): a command ends with an answer, or fails with an error. -/
def State.mailEnd (s : State) (mb : Mbox) (tag error answer : Nat) : State :=
  let m := s.mailOf mb
  let s := s.setMail mb { m with tag := tag, state := if error = 0 then 2 else 3, code := error, answer := answer }
  if (s.ring mb).ctl.getLsbD 9 then s.notice mb 6 (mboxShroud mb) tag 0 else s

/-- A withdrawn pool whose frames are all home is gone; the command that withdrew it then ends (R282, R378). -/
def State.poolHome (s : State) (p : Nat) : State :=
  let s := s.updPart p fun x => { x with lendPools := x.lendPools.filter fun e => match e.2 with | some l => !(l.withdrawn && l.lent == []) | none => false }
  if s.mail.state = 1 ∧ s.mail.cmd = 0x14 ∧ s.mail.part = p ∧ !((s.part p).lendPools.any fun e => match e.2 with | some l => l.withdrawn | none => false)
  then s.mailEnd .pf s.mail.tag 0 0 else s

/-- FRAME_RETURN (R259, R282): a returned frame goes back on its pool's stack. -/
def execFrameReturn (p : BitVec 3) (win : BitVec 10) (frame : BitVec 24) (s : State) : Host.Outcome State Fault Refusal :=
  let pn := p.toNat
  match Tab.get none (s.part pn).lendPools win.toNat with
  | none => .next s
  | some l =>
    if l.lent.any fun x => x.1 == frame.toNat then
      .next ((s.setPool pn win.toNat
        { l with free := frame.toNat :: l.free, lent := l.lent.filter fun y => y.1 != frame.toNat }).poolHome pn)
    else .next s

/-- PUT_LANDED_AT_OWNER (R205, R321, R337): the bytes of another chip's put are written at their homes, then the landed counter
takes their number; without the window, its right or its room, nothing lands. -/
def execPutLandedAtOwner (p : BitVec 3) (win : BitVec 10) (chip : BitVec 12) (off : Nat) (data : List (BitVec 8)) (s : State) :
    Host.Outcome State Fault Refusal :=
  let pn := p.toNat
  match s.exportFor pn win.toNat chip.toNat 1 with
  | none => .next s
  | some w =>
    if w.length < off + data.length ∨ 2 ≤ (s.part pn).migration then .next s
    else
      let va := w.base + BitVec.ofNat 64 off
      let places := (List.range data.length).map fun i => s.resolve pn (va + BitVec.ofNat 64 i) 1 .write
      let as := (takeOk places).1
      let s := s.homeWrite (ctl pn) (as.zip data)
      if as.length < data.length then .next s
      else .next (s.store64 (ctl pn) w.counter (s.load64 pn w.counter + BitVec.ofNat 64 data.length))

end Sys2Proof.Machine
end

