-- ==== Sys2Proof/Machine/HomeEvents.lean ====
section
/-! DEFINITION. The events of a line at its home: reads, writes, atomics, ownership, revocation, the overflow summary, errors of L2 lines, the pool's devices (R317 to R320, R330 to R334, R340, R341, R385). -/

namespace Sys2Proof.Machine

/-- The home slice of a request's line. -/
def State.reqHome (s : State) (r : Req) : Nat := s.homeShroud (s.partOf (r.g / 4)) (r.line * 128)

/-- A request that its home can answer now (R317, R331, R374, R383, R385). -/
def State.request (s : State) (id : Nat) (kinds : List ReqKind) : Option Req :=
  (s.reqs.find? fun r => r.id == id && kinds.contains r.kind).filter fun r => s.reqReady r && !s.lineStalls (s.partOf (r.g / 4)) r.line

/-- A line becomes the most recently used of its slice, if it has an entry (R330). -/
def State.useLine (s : State) (sh line : Nat) : State :=
  s.updShroud sh fun h =>
    let u := h.used.filter fun l => l != line && (Tab.get none h.dir l).isSome
    { h with used := if (Tab.get none h.dir line).isSome then u ++ [line] else u }

/-- DIRECTORY_EVICT (R330): a line needs an entry and none is free (`evict`): the least recently used is freed, its registrants are
revoked, its sharers enter the overflow summary. -/
def State.evictLine (s : State) (sh line : Nat) (evict : Bool) : State :=
  match (s.shroud sh).used.find? fun l => l != line with
  | none => s
  | some v =>
    if !evict || (Tab.get none (s.shroud sh).dir line).isSome then s
    else
      let s := s.revoke sh v 0xFFFFFFFF none
      s.updShroud sh fun h =>
        let b := (Config.summaryHash v).toNat
        let m := match Tab.get none h.dir v with
          | some d => d.sharers
          | none => 0
        { h with summary := Tab.set 0 h.summary b (Tab.get 0 h.summary b ||| m), dir := Tab.set none h.dir v none
                 used := h.used.filter fun l => l != v }

/-- The words of a line that contexts of other cores hold registered. -/
def State.heldElsewhere (s : State) (k line : Nat) : BitVec 32 :=
  s.ctxs.foldl (fun (m : BitVec 32) e => if e.1 / 4 = k then m else m ||| wordMask line (e.2.owned.map fun o => o.1)) 0

/-- A line's 128 bytes as its home answers them to a core. -/
def State.lineData (s : State) (line : Nat) : BitVec 1024 := BitVec.ofNat 1024 (s.homeN (line * 128) 128)

/-- A part of a load's bytes comes, the rest still being asked for. -/
def State.answerPart (s : State) (id : Nat) (bs : List (Nat × Byte)) (poison : Option Nat) : State :=
  { s.answer id bs poison with loads := (s.answer id bs poison).loads.map fun l => if l.id = id then { l with asked := l.asked + 1 } else l }

/-- The words of the aligned 16-byte pieces that a mask touches (R321). -/
def wholePieces (m : BitVec 32) : BitVec 32 :=
  (List.range 8).foldl (fun (r : BitVec 32) i => if field m.toNat (4 * i) 4 = 0 then r else r ||| (0xF#32 <<< (4 * i))) 0

/-- A read answered (R317, R332): the pieces with a word registered elsewhere are forwarded whole (R321), the others answered now. -/
def State.answerRead (s : State) (r : Req) : State :=
  let sh := s.reqHome r
  let away := wholePieces (s.heldElsewhere (r.g / 4) r.line &&& r.words) &&& r.words
  let now := s.wordBytes r.line (r.words &&& ~~~away)
  let po := s.poisonOf sh r.line
  let s := s.patchCopies (r.g / 4) now
  if away = 0 then
    let s := s.dropReq r.id
    match r.load with
    | some l => s.answer l now po
    | none => s
  else
    let s : State := { s with reqs := s.reqs.map fun (q : Req) => if q.id = r.id then { q with words := away, forwarded := true } else q }
    match r.load with
    | some l => s.answerPart l now po
    | none => s

/-- A core takes a copy of a line, its words registered by other cores marked as not held (R332). -/
def State.copyOf (s : State) (k line : Nat) : Copy := { data := s.lineData line, notHeld := s.heldElsewhere k line }

/-- HOME_READ (R332): an SI or WT read. An SI read leaves the core a copy; it needs no entry, so none is freed for it (R330). -/
def execHomeRead (req : Nat) (_evict : Bool) (s : State) : Host.Outcome State Fault Refusal :=
  match s.request req [.read] with
  | none => .next s
  | some r =>
    if r.forwarded then .next s
    else
      let sh := s.reqHome r
      let c := s.copyOf (r.g / 4) r.line
      let s := s.flushTo sh (r.g / 4)
      let s := if r.keep && !s.isBad sh r.line then
          s.updCore (r.g / 4) fun x => { x with siLines := Tab.set none x.siLines r.line (some c) } else s
      .next ((s.answerRead r).useLine sh r.line)

/-- HOME_WI_READ (R332): the core is added to the sharers and holds a copy; an SI copy it has of the line is as new (R322). -/
def execHomeWiRead (req : Nat) (evict : Bool) (s : State) : Host.Outcome State Fault Refusal :=
  match s.request req [.wiRead] with
  | none => .next s
  | some r =>
    if r.forwarded then .next s
    else
      let sh := s.reqHome r
      let k := r.g / 4
      let s := (s.flushTo sh k).evictLine sh r.line (evict && !s.isBad sh r.line)
      let c := s.copyOf k r.line
      let s := if s.isBad sh r.line then s else
        (s.updCore k fun x =>
          { x with wiLines := Tab.set none x.wiLines r.line (some c)
                   siLines := if (Tab.get none x.siLines r.line).isSome then Tab.set none x.siLines r.line (some c) else x.siLines }).updShroud sh fun h =>
          let d := (Tab.get none h.dir r.line).getD ⟨0, []⟩
          { h with dir := Tab.set none h.dir r.line (some { d with sharers := d.sharers ||| (1#32 <<< k) }) }
      .next ((s.answerRead r).useLine sh r.line)

/-- FORWARDED_READ (R317, R334): the registrant answers with the words as they stand. -/
def execForwardedRead (req : Nat) (s : State) : Host.Outcome State Fault Refusal :=
  match s.request req [.read, .wiRead] with
  | none => .next s
  | some r =>
    .next (if r.forwarded then s.answerForwarded r else s)

/-- HOME_WRITE_ACCEPT (R332): a write, or a home atomic on the current value, in the order of the table: revocations,
invalidations, the write, its acknowledgement. -/
def execHomeWriteAccept (req : Nat) (evict : Bool) (s : State) : Host.Outcome State Fault Refusal :=
  match s.request req [.write, .atom] with
  | none => .next s
  | some r =>
    let sh := s.reqHome r
    let k := r.g / 4
    let s := (s.flushTo sh k).evictLine sh r.line (evict && r.wi)
    let w : Writer := { tag := r.tag, p := s.partOf k, keep := if r.wi then some k else none }
    let n := if r.w64 then 8 else 4
    let a := r.line * 128 + r.off
    let old := s.homeBytes a n
    let bs := if r.kind = .atom then addrBytes a (natBytes n (atomVal r.fn (8 * n) (bytesNat old) r.v.toNat r.new.toNat)) else r.data
    let po := s.poisonOf sh r.line
    let s := ((s.lineWrite w r.line bs).patchCopies k bs).dropReq r.id
    let s := match r.load with
      | some l => s.answer l (addrBytes a old) po
      | none => s
    .next (s.useLine sh r.line)

/-- A slot for a context in a line's entry (R332): its own, a free one, or the oldest revoked whole. -/
def State.roomFor (s : State) (sh line g : Nat) : State :=
  match Tab.get none (s.shroud sh).dir line with
  | none => s
  | some d =>
    if d.slots.any (fun t => t.g == g) || decide (d.slots.length < 4) then s
    else
      match d.slots with
      | t :: _ => s.revoke sh line t.mask (some g)
      | [] => s

/-- Words join a context's slot (R330, R332). -/
def DirLine.add (d : DirLine) (g : Nat) (m : BitVec 32) : DirLine :=
  let join (t : Slot) : Slot := if t.g = g then { t with mask := t.mask ||| m } else t
  if d.slots.any fun t => t.g == g then { d with slots := d.slots.map join } else { d with slots := d.slots ++ [⟨g, m⟩] }

/-- HOME_OWN_REQUEST (R332, R333): a slot is made where four others hold them all, other holders lose the words; the words are registered and granted with their current values; the store or atomic that
asked is then performed locally. A poisoned line grants nothing (R341). -/
def execHomeOwnRequest (req : Nat) (evict : Bool) (s : State) : Host.Outcome State Fault Refusal :=
  match s.request req [.own] with
  | none => .next s
  | some r =>
    let sh := s.reqHome r
    let k := r.g / 4
    let p := s.partOf k
    let po := s.poisonOf sh r.line
    let s := (s.flushTo sh k).evictLine sh r.line (evict && po.isNone)
    let answer (s : State) (bs : List (Nat × Byte)) : State := match r.load with
      | some l => s.answer l bs po
      | none => s
    if po.isSome then .next (answer (s.dropReq r.id) (s.wordBytes r.line r.words))
    else
      let s := s.roomFor sh r.line r.g
      let s := s.revoke sh r.line r.words (some r.g)
      let s := s.invalidate (s.ownerPart p (r.line * 128)) sh r.line (some k)
      let cur := s.wordBytes r.line r.words
      let n := if r.w64 then 8 else 4
      let a := r.line * 128 + r.off
      let old := s.homeBytes a n
      let mine := if r.atomic then addrBytes a (natBytes n (atomVal r.fn (8 * n) (bytesNat old) r.v.toNat r.new.toNat)) else r.data
      let new := cur.filter fun b => (Tab.get none (s.ctx r.g).owned b.1).isNone
      let s := s.putOwned r.g (new ++ mine) r.tag
      let s := s.updShroud sh fun h =>
        let d := (Tab.get none h.dir r.line).getD ⟨0, []⟩
        { h with dir := Tab.set none h.dir r.line (some ({ d with sharers := d.sharers &&& (1#32 <<< k) }.add r.g r.words)) }
      .next ((answer (s.dropReq r.id) (if r.atomic then addrBytes a old else cur)).useLine sh r.line)

/-- HOME_SURRENDER (R318): a context returns its words of a line; its slot is freed. -/
def execHomeSurrender (g : BitVec 7) (line : Nat) (s : State) : Host.Outcome State Fault Refusal :=
  .next (s.surrenderLine g.toNat line)

/-- REGISTRANT_REVOCATION (R333): a registrant's words of a line, as they stand, return to the home that revokes them. -/
def execRegistrantRevocation (g : BitVec 7) (line : Nat) (s : State) : Host.Outcome State Fault Refusal :=
  let bs := (s.ctx g.toNat).ownedIn line 0xFFFFFFFF
  if bs = [] then .next s
  else
    let sh := s.homeShroud (s.partOf (g.toNat / 4)) (line * 128)
    .next (((s.flushTo sh (g.toNat / 4)).surrenderLine g.toNat line).useLine sh line)

/-- SUMMARY_BUCKET_CLEAR (R330): every WI copy the bucket covers is invalidated at the cores of its mask. -/
def execSummaryBucketClear (k : BitVec 3) (bucket : BitVec 12) (s : State) : Host.Outcome State Fault Refusal :=
  let sh := k.toNat
  let p := (s.shroud sh).partFirst
  let mask := Tab.get 0 (s.shroud sh).summary bucket.toNat
  let s := (List.range 32).foldl (fun (s : State) c =>
    if !mask.getLsbD c then s
    else if s.inPart p (c / 4) then
      s.updCore c fun x => { x with wiLines := Tab.keep (fun line _ => !(Config.summaryHash line == bucket && s.homeShroud p (line * 128) == sh)) x.wiLines }
    else s.updShroud (c / 4) fun h => { h with probes := min (h.probes + 1) (2 ^ 32 - 1) }) s
  .next (s.updShroud sh fun h => { h with summary := Tab.set 0 h.summary bucket.toNat 0 })

/-- A frame is retired (R341 step 4): no partition maps it, no TLB and no copy under way knows it, no cache holds it. -/
def State.retire (s : State) (line : Nat) : State :=
  let page := line * 128 / 65536
  let mapsIt (m : PageMap) : Bool := pagePa m 0 == page * 65536
  let forget (t : Tab (Option PageMap)) : Tab (Option PageMap) := Tab.keep (fun _ m => m.any fun m => !mapsIt m) t
  let s : State := { s with retired := if s.retired.contains page then s.retired else s.retired ++ [page]
                            threads := s.threads.map fun (t : Thread) => { t with pages := forget t.pages } }
  let gone (l : Nat) : Bool := l * 128 / 65536 == page
  let s := (List.range 8).foldl (fun (s : State) q =>
    s.updPart q fun x => { x with pages := forget x.pages }) s
  let s := (List.range 32).foldl (fun (s : State) k =>
    s.updCore k fun x =>
      { x with tlb := Tab.keep (fun _ m => match m with | some (some m) => !mapsIt m | _ => true) x.tlb
               siLines := Tab.keep (fun l _ => !gone l) x.siLines, wiLines := Tab.keep (fun l _ => !gone l) x.wiLines
               unpub := Tab.keep (fun a _ => a / 65536 != page) x.unpub }) s
  let s := (List.range 128).foldl (fun (s : State) g =>
    s.updCtx g fun c => { c with owned := Tab.keep (fun a _ => a / 65536 != page) c.owned }) s
  (List.range 8).foldl (fun (s : State) k =>
    s.updShroud k fun h =>
      { h with l2 := Tab.keep (fun l v => !gone l || (match v with | some v => v.bad | none => false)) h.l2
               dir := Tab.keep (fun l _ => !gone l) h.dir, used := h.used.filter fun l => !gone l }) s

/-- The dependences on launch v of the launches that are not yet counted decide once more (R341 step 3): they count as unmet
again. Of an object that had been tainted before its trig bit or SYSC 0x020 satisfied them, and they stand (R300, R301). -/
def State.redecide (s : State) (v : Launch) : State :=
  let place (p : Nat) (a : Word) : Option Nat := match s.resolve p a 8 .read with | .ok pa => some pa | .error _ => none
  let on (l : Launch) (d : Nat) : Bool := (l.p == v.p && l.dep d == v.co) || (place l.p (l.dep d) == place v.p v.co && (place v.p v.co).isSome)
  { s with launches := s.launches.map fun l =>
      if l.stage = .held then { l with met := l.met.filter fun d => !on l d } else l }

/-- A victim that is already done (R341 step 3) keeps its state and finish time, takes verdict tainted and a record. -/
def State.taintDone (s : State) (i : Nat) (f : FaultRec) : State :=
  match s.launches[i]? with
  | none => s
  | some l =>
    let (s, va) := s.faultRecord l.p { f with launch := l.id }
    s.updLaunch i fun l => { l with verdict := 2, fault := va }

/-- The completion object of such a victim is written, and the dependences on it decide once more, if it had not been tainted before. -/
def State.taintWrite (s : State) (i : Nat) (again : Bool) : State :=
  match s.launches[i]? with
  | none => s
  | some l =>
    let s := s.store64 (ctl l.p) (l.co + 24) l.fault
    let s := s.store64 (ctl l.p) l.co l.word0
    if again then s.redecide l else s

/-- The partition whose slices home a line: that of its HBM stack, or for a line of the pool the one whose home slice holds it. -/
def State.linePart (s : State) (line : Nat) : Nat :=
  if line * 128 < hbmTop then (s.shroud (line * 128 / 2 ^ 36)).partFirst
  else
    ((List.range 8).find? fun p => (s.shroud p).partFirst == p && (Tab.get none (s.shroud (s.homeShroud p (line * 128))).l2 line).isSome).getD 0

/-- Steps 4 and 5 of R341: the page is retired, the way takes no further line. Then the victims' completion objects are written. -/
def State.retireStep (s : State) (b : BadLine) : State :=
  let sh := s.homeShroud (s.linePart b.line) (b.line * 128)
  let s := (s.retire b.line).updShroud sh fun h => { h with qways := h.qways ++ [(Config.l2Set b.line).toNat * 24 + b.way] }
  let s := State.healthCheck
    { s with healthReg := { s.healthReg with retired := min 16383 (s.healthReg.retired + 1) }
             retiring := s.retiring.filter fun r => r.line != b.line }
  b.taints.foldl (fun s e => s.taintWrite e.1 e.2) (b.ends.foldl State.closeLaunch s)

/-- L2_UE_DETECT (R341): a clean line is fetched again; a dirty one is poisoned and its writers stop; then, while its readers meet the
poison, its page is retired and its way quarantined. `set` is the line's, which its address gives, and `way` where in it the line stood,
which the manual leaves to a part: another set does not hold the line, there is no way beyond the 24 of a set (R4), and no line in a
quarantined one (log entry 13). -/
def execL2UeDetect (line : Nat) (set : BitVec 14) (way : BitVec 8) (s : State) : Host.Outcome State Fault Refusal :=
  let p := s.linePart line
  let sh := s.homeShroud p (line * 128)
  match s.retiring.find? fun r => r.line == line with
  | some b => .next (s.retireStep b)
  | none =>
  if set ≠ Config.l2Set line ∨ 24 ≤ way.toNat ∨ (s.shroud sh).qways.contains (set.toNat * 24 + way.toNat) then .next s else
  let s : State := { s with healthReg := { s.healthReg with ue := min 255 (s.healthReg.ue + 1) } }
  match Tab.get none (s.shroud sh).l2 line with
  | none => .next s
  | some l =>
    if !l.dirty then .next (s.updShroud sh fun h => { h with l2 := Tab.set none h.l2 line none })
    else
      let s := s.updShroud sh fun h => { h with l2 := Tab.set none h.l2 line (some { l with bad := true }) }
      let victims := (List.range s.launches.length).filter fun i =>
        (s.launches[i]?).any fun x => if l.shared then x.p == p && x.stage != .final else l.owner == i + 1
      let over_ := victims.filter fun i => !s.live i
      let f : FaultRec := { code := 4, source := 1, flags := 6 + l.shared.toNat, addr := BitVec.ofNat 64 (line * 128)
                            shroud := sh, way := way.toNat, set := set.toNat }
      let b : BadLine := { line := line, way := way.toNat, ends := victims.filter s.live
                           taints := over_.map fun i => (i, (s.launches[i]?).any fun x => decide (x.verdict < 2)) }
      let s := victims.foldl (fun (s : State) i => if s.live i then s.haltLaunch i 4 2 f else s.taintDone i f) s
      .next { s with retiring := s.retiring ++ [b] }

/-- POOL_BACK_INVALIDATE (R385): handled at the line's home as a write event: registrants revoked, sharers invalidated, a dirty
line written back. -/
def execPoolBackInvalidate (line : Nat) (s : State) : Host.Outcome State Fault Refusal :=
  .next ((List.range 8).foldl (fun (s : State) p =>
    if (s.shroud p).partFirst ≠ p ∨ line * 128 < poolBase ∨ hostBase ≤ line * 128 then s
    else
      let sh := s.homeShroud p (line * 128)
      let s := s.revoke sh line 0xFFFFFFFF none
      let s := s.invalidate p sh line none
      s.updShroud sh fun h => { h with dir := Tab.set none h.dir line none, l2 := if s.isBad sh line then h.l2 else Tab.set none h.l2 line none
                                       used := h.used.filter fun l => l != line }) s)

/-- A thread stops where it is with a fault code (R195). -/
def State.stopThread (s : State) (t : Thread) (code : Nat) : State :=
  if t.cmd.isCopy then
    let running := (Tab.get Chan.idle (s.core t.core).chans t.cmd.chan).run == some t.id
    let s := s.threadEnd t.id 4 code 0
    if running then s.chanNext t.core t.cmd.chan
    else s.updCore t.core fun x =>
      let ch := Tab.get Chan.idle x.chans t.cmd.chan
      { x with chans := Tab.set Chan.idle x.chans t.cmd.chan { ch with wait := ch.wait.filter fun i => i != t.id } }
  else s.threadGone t 4 code t.progress 0

/-- POOL_DEVICE_TIMEOUT (R385): a load or atomic lands poisoned, an engine command faults with code UE; whether a store that
was not answered was performed the manual does not say (log entry 11). -/
def execPoolDeviceTimeout (engine : Bool) (req : Nat) (s : State) : Host.Outcome State Fault Refusal :=
  if engine then
    match s.threads.find? fun t => t.id == req && t.state == 1 with
    | none => .next s
    | some t => .next (if s.threadOn t fun m => m.mtype == .pool then s.stopThread t 4 else s)
  else
    match s.reqs.find? fun r => r.id == req && decide (poolBase ≤ r.line * 128) && decide (r.line * 128 < hostBase) with
    | none => .next s
    | some r =>
      match r.load with
      | some l => .next ((s.dropReq r.id).answer l [] (some r.line))
      | none =>
        let done := Config.freeBool s.freeCtr && r.kind == .write
        let w : Writer := { tag := r.tag, p := s.partOf (r.g / 4), keep := none }
        .next ((if done then s.lineWrite w r.line r.data else s).tick.dropReq r.id)

end Sys2Proof.Machine
end

