-- ==== Sys2Proof/Machine/Shake.lean ====
section
/-! DEFINITION. SHAKE256 of FIPS 202, the digest of images, measurements and reports (R390, R391; log entry 17). -/

namespace Sys2Proof.Machine

/-- The sponge's 1600 bits; its 64-bit word at column x and row y, both counted modulo 5, starts at bit 64(5y + x). -/
abbrev Sponge := BitVec 1600
def Sponge.word (a : Sponge) (x y : Nat) : BitVec 64 := (a >>> (64 * (5 * (y % 5) + x % 5))).setWidth 64

/-- A sponge from its words. -/
def spongeOf (f : Nat → Nat → BitVec 64) : Sponge :=
  BitVec.ofNat 1600 ((List.range 25).foldl (fun n i => n + (f (i % 5) (i / 5)).toNat * 2 ^ (64 * i)) 0)

/-- Rho's rotation of the word at (x, y), met at step t of the walk from (1, 0) by (x, y) → (y, 2x + 3y); `left` steps remain. -/
def rhoWalk (x y : Nat) : (left u v t : Nat) → Nat
  | 0, _, _, _ => 0
  | left + 1, u, v, t => if u = x ∧ v = y then (t + 1) * (t + 2) / 2 else rhoWalk x y left v ((2 * u + 3 * v) % 5) (t + 1)

/-- The shift register that iota draws on, after t shifts; its feedback enters at bits 0, 4, 5 and 6. -/
def iotaReg : (t : Nat) → Nat
  | 0 => 1
  | t + 1 =>
    let r := iotaReg t
    if r < 128 then 2 * r else (2 * r - 256) ^^^ 0x71

/-- Iota's word of round r: the register's low bit after 7r + j shifts at bit 2^j − 1. -/
def iotaWord (r : Nat) : BitVec 64 :=
  BitVec.ofNat 64 ((List.range 7).foldl (fun n j => n + iotaReg (7 * r + j) % 2 * 2 ^ (2 ^ j - 1)) 0)

/-- Theta: each bit takes the parities of two neighbouring columns. -/
def Sponge.theta (a : Sponge) : Sponge :=
  let parity (x : Nat) : BitVec 64 := a.word x 0 ^^^ a.word x 1 ^^^ a.word x 2 ^^^ a.word x 3 ^^^ a.word x 4
  spongeOf fun x y => a.word x y ^^^ parity (x + 4) ^^^ (parity (x + 1)).rotateLeft 1
/-- Rho, then pi: the word at (x, y) comes from column x + 3y of row x, turned by its own amount. -/
def Sponge.rhoPi (a : Sponge) : Sponge :=
  spongeOf fun x y => (a.word (x + 3 * y) x).rotateLeft (rhoWalk ((x + 3 * y) % 5) x 24 1 0 0 % 64)
/-- Chi, along each row. -/
def Sponge.chi (a : Sponge) : Sponge := spongeOf fun x y => a.word x y ^^^ (~~~a.word (x + 1) y &&& a.word (x + 2) y)

/-- The permutation's rounds r = 24 − left to 23. -/
def Sponge.rounds (a : Sponge) : (left : Nat) → Sponge
  | 0 => a
  | left + 1 => (a.theta.rhoPi.chi ^^^ (iotaWord (23 - left)).setWidth 1600).rounds left

/-- Blocks of 136 bytes absorbed, one after another. -/
def Sponge.absorb (a : Sponge) : (blocks : Nat) → List Byte → Sponge
  | 0, _ => a
  | n + 1, bs => ((a ^^^ BitVec.ofNat 1600 (bytesNat (bs.take 136))).rounds 24).absorb n (bs.drop 136)

/-- SHAKE256 with n output bytes, n up to 136: the suffix 1111 and the padding 10*1 end the last block. -/
def shake256 (msg : List Byte) (n : Nat) : List Byte :=
  let blocks := msg.length / 136 + 1
  let tail := natBytes (136 * blocks - msg.length) (0x1F + 2 ^ (8 * (136 * blocks - msg.length) - 1))
  natBytes n (Sponge.absorb 0 blocks (msg ++ tail)).toNat

end Sys2Proof.Machine
end

