-- ==== Sys2Proof/Machine/Spindle.lean ====
section
/-! DEFINITION. The spindle: decisions on records, dependences, entries by aged key, placement of gangs, starts of units, victims of a pre-emption (R294 to R314). -/

namespace Sys2Proof.Machine

/-- Reserved bytes of a record that must be zero, and the limits of its fields: check 1 of R296. -/
def Launch.fieldsOk (l : Launch) : Bool :=
  l.entry % 32 == 0 && decide (1 ≤ l.scope) && decide (l.scope ≤ 4) && decide (1 ≤ l.gang) && decide (l.gang ≤ 16) &&
  decide (l.span ≤ 1) && (l.span == 1 || decide (l.gang ≤ 4)) && decide (l.ndeps ≤ 3) &&
  ((List.range 3).all fun i => if i < l.ndeps then decide (l.need i ≤ 1) else l.dep i == 0) &&
  recN l.record 67 1 / 2 == 0 && l.textBase.toNat % 32 == 0 && l.segBase.toNat % 32 == 0 &&
  (l.segBase != 0 || l.segCount == 0) && recN l.record 68 4 == 0 && recN l.record 116 12 == 0

/-- Check 2 of R296: the core mask. -/
def State.coresOk (s : State) (l : Launch) : Bool :=
  let cs := (List.range 32).filter fun k => l.coreMask.testBit k
  cs != [] && cs.all (fun k => s.inPart l.p (k / 4)) &&
  (l.span == 0 || (List.range 8).any fun q => decide (ceilDiv l.gang 4 ≤ (cs.filter fun k => k / 4 == q).length))

/-- Entries in use in a partition, launches held or held failed, and pending dependences (R296, R299). -/
def State.heldCount (s : State) (p : Nat) : Nat := (s.launches.filter fun l => l.p == p && l.stage == .held).length
def State.present (s : State) (p : Nat) : Nat := (s.launches.filter fun l => l.p == p && l.stage != .final).length
def State.pendingDeps (s : State) (p : Nat) : Nat :=
  (s.launches.map fun l => if l.p = p ∧ l.stage = .held then l.ndeps - l.met.length else 0).foldl (· + ·) 0

/-- The slice a new entry goes to (R296): that with the most free entries, the lowest shroud among equals. -/
def State.sliceFor (s : State) (p : Nat) : Nat :=
  let used (sh : Nat) : Nat := (s.launches.filter fun l => l.p == p && l.slice == sh && l.stage != .final).length
  (List.range (s.partSize p)).foldl (fun b d => if used (p + d) < used b then p + d else b) p

/-- The status a record is decided with (R296): the first failure, else 1. -/
def State.recordStatus (s : State) (l : Launch) : Nat :=
  let reads (a : Word) : Bool := match s.resolve l.p a 1 .read with | .ok _ => true | .error _ => false
  let writes (a : Word) : Bool := match s.resolve l.p a 1 .write with | .ok _ => true | .error _ => false
  if !l.fieldsOk then 3
  else if !s.coresOk l then 3
  else if l.co = 0 ∨ l.co.toNat % 32 ≠ 0 then 3
  else if !writes l.co ∨ !((List.range l.ndeps).all fun i => reads (l.dep i)) then 4
  else if 16384 * s.partSize l.p ≤ s.present l.p ∨ (l.ndeps ≠ 0 ∧ 4096 * s.partSize l.p < s.pendingDeps l.p + l.ndeps) then 2
  else 1

/-- Whether a dependence's object satisfies it, or fails it (R300). -/
def depMet (need : Nat) (w : Word) : Bool :=
  (need == 0 && coTrig w) || (coState w == 2 && decide (coVerdict w ≤ 1))
def depFails (need : Nat) (w : Word) : Bool := coFinal w && !depMet need w

/-- A launch whose dependences are all satisfied is counted (R294, R303): counts and param are read; it is refused, ends
without a unit, or becomes eligible. -/
def State.count (s : State) (i : Nat) : State :=
  match s.launches[i]? with
  | none => s
  | some l0 =>
    let rec_ := l0.record.take 8 ++ s.loadVa l0.p (l0.va + 8) 20 ++ l0.record.drop 28
    let l := { l0 with record := rec_ }
    let total := l.nx * l.ny * l.nz
    if 2 ^ 24 < l.nx ∨ 2 ^ 24 < l.ny ∨ 2 ^ 24 < l.nz ∨ 2 ^ 40 < total then
      let s := s.updLaunch i fun x => { x with record := rec_, stage := .final, outcome := some .refused, code := 9 }
      (s.store64 (ctl l.p) (l.va + 80) 3).coWrite i
    else if total = 0 then
      (s.updLaunch i fun x => { x with record := rec_, stage := .running, trig := true }).settle i
    else
      (s.updLaunch i fun x => { x with record := rec_, stage := .eligible, outstanding := total, total := total, since := s.timebase }).coWrite i

/-- The dependences of a held launch are looked at (R300 to R302): the satisfied are counted, those satisfied by trig are owed until
they are final, a failed one holds it failed, and with all satisfied it is counted. -/
def State.decideDeps (s : State) (i : Nat) : State :=
  match s.launches[i]? with
  | none => s
  | some l =>
    let open_ := (List.range l.ndeps).filter fun d => !l.met.contains d
    let w (d : Nat) : Word := s.load64 l.p (l.dep d)
    let met := open_.filter fun d => depMet (l.need d) (w d)
    let byTrig := met.filter fun d => l.need d == 0 && coTrig (w d)
    let s := s.updLaunch i fun x =>
      { x with met := x.met ++ met, failed := open_.find? fun d => depFails (l.need d) (w d)
               owed := x.owed ++ byTrig.filter fun d => !coFinal (w d), owedBad := x.owedBad || byTrig.any fun d => coBad (w d) }
    if open_.length = met.length then s.count i else s

/-- SPINDLE_DECIDE (R294, R296, R297, R300): a submitted record is read from its home and refused with its status, or
accepted in a slice: its object pending, its id and status written, its dependences registered. -/
def State.decideRecord (s : State) (t : Thread) : State :=
  let p := t.p
  let va := t.cmd.a
  let s : State := { s with threads := s.threads.filter fun u => u.id != t.id }
  let i := s.launches.length
  let l : Launch :=
    { id := s.freshId, p := p, va := va, record := s.loadVa p va 128, stage := .held, outcome := none, code := 0, verdict := 0
      slice := s.sliceFor p, failed := none
      next := 0, total := 0, outstanding := 0, triggered := 0, trig := false, since := s.timebase, passed := none, kept := false
      claim := [], saved := [], fault := 0, owed := [], owedBad := false, met := [] }
  let st := s.recordStatus l
  if st ≠ 1 then s.store64 (ctl p) (va + 80) (BitVec.ofNat 64 st)
  else
    let s : State := { s with launches := s.launches ++ [l], nextLaunch := s.nextLaunch + 1 }
    let s := s.store64 (ctl p) l.co 0
    let s := s.store64 (ctl p) (va + 88) (BitVec.ofNat 64 l.id)
    let s := s.store64 (ctl p) (va + 80) 1
    (s.decideDeps i).endStranded p

/-- A candidate gang of an entry: its number, its aged key's starting time, its saved units (none: a fresh gang). -/
structure Cand where
  gang : Nat
  since : Word
  units : List Saved
deriving DecidableEq, Repr

/-- Whether some unit of a gang still runs (its other units are being pre-empted). -/
def State.gangRuns (s : State) (i gang : Nat) : Bool :=
  (List.range 128).any fun g => (s.ctx g).unit.any fun u => u.launch == i && u.gang == gang

/-- The gangs of an entry that wait (R307, R314): those pre-empted whole, and the next fresh one. -/
def State.waiting (s : State) (i : Nat) : List Cand :=
  match s.launches[i]? with
  | none => []
  | some l =>
    let gs := (l.saved.map fun v => v.unit.gang).eraseDups
    let back := (gs.filter fun n => !s.gangRuns i n).map fun n =>
      let us := l.saved.filter fun v => v.unit.gang == n
      ({ gang := n, since := (us.map fun v => v.since).getLastD 0, units := us } : Cand)
    let fresh := if (l.stage == .eligible || l.stage == .running) && !l.take && decide (l.next < l.total) then
        [({ gang := l.next / l.gang, since := l.since, units := [] } : Cand)] else []
    back ++ fresh

/-- The candidate an entry offers: the one of smallest aged key, the earliest gang among equals. -/
def State.bestCand (s : State) (i : Nat) : Option (Nat × Cand) :=
  match s.launches[i]? with
  | none => none
  | some l =>
    (s.waiting i).foldl (fun (b : Option (Nat × Cand)) c =>
      let k := s.agedKey l c.since
      match b with
      | none => some (k, c)
      | some (k', c') => if k < k' ∨ (k = k' ∧ c.gang < c'.gang) then some (k, c) else some (k', c')) none

/-- The waiting entries of a partition with their candidates: launch, aged key, candidate. -/
def State.entries (s : State) (p : Nat) : List (Nat × Nat × Cand) :=
  (List.range s.launches.length).filterMap fun i =>
    match s.launches[i]? with
    | none => none
    | some l => if l.p = p then (s.bestCand i).map fun b => (i, b.1, b.2) else none

/-- The cores a launch is admitted on: in its mask, its partition, in service (R307, R358). -/
def State.admitted (s : State) (l : Launch) : List Nat :=
  (s.partCores l.p).filter fun k => l.coreMask.testBit k && (s.core k).health != .out

/-- The groups a gang may be placed on: admitted cores, or quads with an admitted core; each with its cores (R307). -/
def State.groups (s : State) (l : Launch) : List (List Nat) :=
  let ks := s.admitted l
  if l.span = 0 then ks.map fun k => [k]
  else ((ks.map fun k => k / 4).eraseDups).map fun q => ks.filter fun k => k / 4 == q

/-- Whether a context is held back from an entry: kept for a passed-over entry of smaller key (R307), or freed by a
pre-emption for another that still has a gang to place (R311). -/
def State.heldBack (s : State) (i key g : Nat) : Bool :=
  (s.launches.zipIdx).any fun (e : Launch × Nat) =>
    e.2 != i && ((e.1.claim.contains g && e.1.stage != .final && (s.bestCand e.2).isSome) ||
      (e.1.kept && e.1.stage != .final &&
        (match s.bestCand e.2, (s.groups e.1).head? with
          | some b, some ks => decide (b.1 < key) && ks.contains (g / 4)
          | _, _ => false)))

/-- The idle contexts of a group that an entry may take, ascending: none of a core whose maps are to be written (R239). -/
def State.idleOf (s : State) (i key : Nat) (ks : List Nat) : List Nat :=
  ((ks.map fun k => [4 * k, 4 * k + 1, 4 * k + 2, 4 * k + 3]).flatten).filter fun g =>
    (s.ctx g).unit.isNone && (s.core (g / 4)).mapTo.isNone && !s.heldBack i key g

/-- UNIT_START (R304): the acquire at PART and the state a unit begins with. -/
def State.startUnit (s : State) (l : Launch) (u : Unit) (g : Nat) : State :=
  let s := s.acquire (g / 4) 4
  let old := s.ctx g
  let r : Regs := { Regs.reset with
    pc := BitVec.ofNat 64 l.entry, wu := (State.wuOf l u.index).foldl (fun t e => Tab.set 0 t e.1 e.2) []
    trapRec := s.trapRecOf g, segBase := l.segBase, segText := l.textBase, segCount := l.segCount }
  s.setCtx g { Ctx.reset with
    regs := r, unit := some u, attached := old.attached, perfSteps := old.perfSteps, perfIssue := old.perfIssue
    perfStall := old.perfStall, perfEng := old.perfEng }

/-- Units placed on contexts in ascending order. -/
def State.startAll (s : State) (l : Launch) : List (Unit × Nat) → State
  | [] => s
  | (u, g) :: r => (s.startUnit l u g).startAll l r

/-- Saved units placed on contexts that admit them (R314): on ascending ones when `asc` (R307). -/
def State.placeSaved (s : State) (l : Launch) (i : Nat) (asc : Bool) : List Saved → List Nat → Option State
  | [], _ => some s
  | v :: r, gs => gs.findSome? fun g =>
      if s.admits l v (g / 4) then
        (s.resume i v g).placeSaved l i asc r (gs.filter fun h => if asc then decide (g < h) else h != g)
      else none

/-- A gang placed on a group, if it fits (R307, R314): units in ascending order on contexts in ascending order, where the
restrictions of R314 leave such an order. -/
def State.placeOn (s : State) (i key : Nat) (c : Cand) (ks : List Nat) : Option State :=
  match s.launches[i]? with
  | none => none
  | some l =>
    let gs := s.idleOf i key ks
    match c.units with
    | [] =>
      let n := min l.gang (l.total - l.next)
      if gs.length < n then none
      else
        let us : List Unit := (List.range n).map fun j => ⟨i, l.next + j, c.gang, false⟩
        let s := s.startAll l (us.zip gs)
        some (s.updLaunch i fun x => { x with next := x.next + n, stage := .running, passed := none, kept := false, claim := [] })
    | us =>
      let us := sortBy (fun (a b : Saved) => decide (a.unit.index ≤ b.unit.index)) us
      ((s.placeSaved l i true us gs).orElse fun _ => s.placeSaved l i false us gs).map fun s =>
        let s := s.updLaunch i fun x => { x with passed := none, kept := false, claim := [] }
        (List.range 128).foldl (fun (s : State) g =>
          match (s.ctx g).unit, (s.ctx g).arrived with
          | some u, some (scope, id) => if u.launch = i ∧ u.gang = c.gang ∧ scope ≤ 2 then s.gangRound g scope id else s
          | _, _ => s) s

/-- The groups of an entry, those with most idle contexts first, the lowest among equals (R307). -/
def State.byIdle (s : State) (i key : Nat) (gs : List (List Nat)) : List (List Nat) :=
  sortBy (fun a b => decide ((s.idleOf i key b).length ≤ (s.idleOf i key a).length)) gs

/-- A gang placed on the best group that takes it. -/
def State.placeGang (s : State) (i key : Nat) (c : Cand) : Option State :=
  match s.launches[i]? with
  | none => none
  | some l => (s.byIdle i key (s.groups l)).findSome? fun ks => s.placeOn i key c ks

/-- R307's order: an entry may go when its aged key is within the relaxation bound and no earlier entry of its slice and key can be
placed (R306). -/
def State.mayGo (s : State) (p i key : Nat) : Bool :=
  let es := s.entries p
  let smaller := (es.filter fun e => decide (e.2.1 < key)).length
  decide (smaller < 8 * s.partSize p) &&
  (es.all fun e => !(e.2.1 == key && s.entered e.1 i) || (s.placeGang e.1 e.2.1 e.2.2).isNone)

/-- DISPATCH_GANG (R304, R307, R308, R314): the entry's next gang is placed, or the entry is passed over. -/
def State.dispatch (s : State) (i : Nat) : State :=
  match s.launches[i]?, s.bestCand i with
  | some l, some (key, c) =>
    if !s.partOpen l.p || decide (2 ≤ (s.part l.p).migration) || !s.mayGo l.p i key then s
    else
      match s.placeGang i key c with
      | some s => s.coWrite i
      | none => s.updLaunch i fun x => { x with passed := some (x.passed.getD s.timebase) }
  | _, _ => s

/-- The time an entry may be passed over before contexts are kept for it, in ns (R307). -/
def State.patience (s : State) (p : Nat) : Nat :=
  let limit := field (s.part p).spnCtl.toNat 32 16
  if limit = 0 then 1000000 else limit * 1000

/-- A running gang as a pre-emption sees it: launch, number, contexts. -/
structure Run where
  launch : Nat
  gang : Nat
  ctxs : List Nat
deriving DecidableEq, Repr

/-- The running gangs of a partition that are not being pre-empted. -/
def State.runs (s : State) (p : Nat) : List Run :=
  let on := (List.range 128).filterMap fun g =>
    match (s.ctx g).unit with
    | some u => if s.inPart p (g / 16) && !(s.ctx g).preempt then some (u.launch, u.gang) else none
    | none => none
  on.eraseDups.map fun e =>
    { launch := e.1, gang := e.2
      ctxs := (List.range 128).filter fun g => (s.ctx g).unit.any fun u => u.launch == e.1 && u.gang == e.2 }

/-- The order of preference among victims (R311): the largest written key, then the latest launch, then the highest context. -/
def State.preferred (s : State) (a b : Run) : Bool :=
  let key (r : Run) : Nat := match s.launches[r.launch]? with | some l => l.key | none => 0
  let top (r : Run) : Nat := r.ctxs.getLastD 0
  decide (key b < key a) ||
  (key a == key b && (decide (b.launch < a.launch) || (a.launch == b.launch && decide (top b ≤ top a))))

/-- The contexts a gang frees on a group of cores. -/
def Run.frees (r : Run) (ks : List Nat) : Nat := (r.ctxs.filter fun g => ks.contains (g / 4)).length

/-- The first n gangs by preference that free the room, after those already picked. -/
def pickRuns (ok : List Run → Bool) : Nat → List Run → List Run → Option (List Run)
  | 0, picked, _ => if ok picked then some picked else none
  | _ + 1, _, [] => none
  | n + 1, picked, r :: rs => (pickRuns ok n (picked ++ [r]) rs).orElse fun _ => pickRuns ok (n + 1) picked rs

/-- The partition as it would stand with contexts saved (R311, R313). -/
def State.without (s : State) (gs : List Nat) : State := gs.foldl (fun s g => s.save g) s

/-- The victims on one group (R311): the fewest whole gangs that free the room, by preference; none where no set does. Room for a
pre-empted gang takes in the banks and tiles it comes back with (R314). -/
def State.victims (s : State) (i key pri margin : Nat) (c : Cand) (ks : List Nat) : Option (List Run) :=
  match s.launches[i]? with
  | none => none
  | some l =>
    let going := (ks.map fun k => [4 * k, 4 * k + 1, 4 * k + 2, 4 * k + 3]).flatten.filter fun g =>
      (s.ctx g).unit.isSome && (s.ctx g).preempt && !s.heldBack i key g
    let idle := (s.idleOf i key ks).length + going.length
    let need := if c.units = [] then min l.gang (l.total - l.next) else c.units.length
    let fits (rs : List Run) : Bool :=
      decide (need ≤ idle + (rs.map fun r => r.frees ks).foldl (· + ·) 0) &&
      (c.units == [] || ((s.without (going ++ (rs.map fun r => r.ctxs).flatten)).placeOn i key c ks).isSome)
    let pr (r : Run) : Nat := match s.launches[r.launch]? with | some x => field x.key 24 8 | none => 0
    let rs := sortBy s.preferred ((s.runs l.p).filter fun r => decide (0 < r.frees ks) && decide (pri + margin ≤ pr r))
    (List.range (rs.length + 1)).findSome? fun n => pickRuns fits n [] rs

/-- PREEMPTION_CALL (R311, R312): the group with the fewest victim gangs is chosen, and their contexts are to be saved. -/
def State.callPreempt (s : State) (i : Nat) : State :=
  match s.launches[i]?, s.bestCand i with
  | some l, some (key, c) =>
    let margin := field (s.part l.p).spnCtl.toNat 0 8
    let pri := key / 2 ^ 24
    if margin = 0 ∨ l.take ∨ (s.placeGang i key c).isSome ∨ !s.partOpen l.p ∨ 2 ≤ (s.part l.p).migration then s
    else
      let opts := (s.groups l).filterMap fun ks => (s.victims i key pri margin c ks).map fun v => (ks, v)
      let better (a b : List Nat × List Run) : Bool :=
        if a.2.length ≠ b.2.length then decide (a.2.length < b.2.length)
        else
          match a.2.head?, b.2.head? with
          | some x, some y => s.preferred x y
          | _, _ => true
      match sortBy better opts with
      | [] => s
      | (_, v) :: _ =>
        let gs := (v.map fun r => r.ctxs).flatten
        let s := gs.foldl (fun (s : State) g => s.updCtx g fun x => { x with preempt := true }) s
        s.updLaunch i fun x => { x with claim := x.claim ++ gs }
  | _, _ => s

end Sys2Proof.Machine
end

