-- ==== Sys2Proof/Machine/SpindleEvents.lean ====
section
/-! DEFINITION. The events of the spindle and its controller (R294 to R314). -/

namespace Sys2Proof.Machine

/-- SPINDLE_DECIDE (R294, R296): a submitted record, once its LAUNCH's release is complete (R297); host insertions in order (R298). -/
def execSpindleDecide (sub : Nat) (s : State) : Host.Outcome State Fault Refusal :=
  match s.threads.find? fun t => t.id == sub && t.cmd.op == 9 with
  | none => .next s
  | some t =>
    let before := t.core == 32 && s.threads.any fun u => u.cmd.op == 9 && u.core == 32 && u.p == t.p && decide (u.id < t.id)
    .next (if before || !s.covered t.core t.cmd || !s.partOpen t.p || s.threadStalls t then s else s.decideRecord t)

/-- DEPENDENCE_DECIDED (R300 to R302): a held launch's dependences are looked at; one that waits only for owed dependences ends. -/
def execDependenceDecided (launch : Nat) (s : State) : Host.Outcome State Fault Refusal :=
  match s.launches[launch]? with
  | none => .next s
  | some l =>
    match l.stage with
    | .held => .next (if l.failed.isSome then s else s.decideDeps launch)
    | .running => .next (s.settle launch)
    | .eligible | .final => .next s

/-- DISPATCH_GANG (R307). -/
def execDispatchGang (launch : Nat) (s : State) : Host.Outcome State Fault Refusal := .next (s.dispatch launch)

/-- PASSED_OVER_TIMEOUT (R307): idle contexts are kept from now on for an entry passed over for its period. -/
def execPassedOverTimeout (launch : Nat) (s : State) : Host.Outcome State Fault Refusal :=
  match s.launches[launch]? with
  | none => .next s
  | some l =>
    match l.passed with
    | none => .next s
    | some t =>
      .next (if s.patience l.p ≤ (s.timebase - t).toNat then s.updLaunch launch fun x => { x with kept := true } else s)

/-- PREEMPTION_CALL (R311). -/
def execPreemptionCall (launch : Nat) (s : State) : Host.Outcome State Fault Refusal := .next (s.callPreempt launch)

/-- LAUNCH_KILL (R295): a running launch ends faulted, code killed, tainted; a scrub of the stores is due (R275). -/
def execLaunchKill (launch : Nat) (s : State) : Host.Outcome State Fault Refusal :=
  match s.launches[launch]? with
  | none => .next s
  | some l =>
    if l.stage ≠ .running then .next s
    else
      .next ((s.endLaunch launch 11 2 { code := 11, source := 2 }).scrubsDue l.p)

/-- LAUNCH_WINDOW_STORE (R298, R376): a store with the right key and a record that translates is submitted; any other is
dropped and counted. -/
def execLaunchWindowStore (p : BitVec 3) (value : BitVec 64) (s : State) : Host.Outcome State Fault Refusal :=
  let pn := p.toNat
  let x := s.part pn
  let va := BitVec.ofInt 64 (signExt (field value.toNat 0 48 * 128) 55)
  let okRead := match s.resolve pn va 1 .read with | .ok _ => true | .error _ => false
  let okWrite := match s.resolve pn va 1 .write with | .ok _ => true | .error _ => false
  if !s.mboxExists (.vf p) then .next s
  else if field value.toNat 48 16 ≠ field x.spnCtl.toNat 48 16 ∨ !okRead ∨ !okWrite then
    .next (s.updPart pn fun x => { x with dropped := min 65535 (x.dropped + 1) })
  else
    let t : Thread := { id := s.nextThread, cmd := { op := 9, g := 128, a := va, scope := 4 }, core := 32, p := pn }
    .next { s with threads := s.threads ++ [t], nextThread := s.nextThread + 1 }

end Sys2Proof.Machine
end

