-- ==== Sys2Proof/Machine/ShroudEvents.lean ====
section
/-! DEFINITION. Partitions: opening, reset, draining, zeroising, translations, gate audits, measurements (R351, R361 to R368, R391). -/

namespace Sys2Proof.Machine

/-- A count of a gate that saturates (R364). -/
def bump32 (n : Nat) : Nat := min (n + 1) (2 ^ 32 - 1)

/-- A measurement slot extended with a digest: SHAKE256 of the two (R391). -/
def extend (slot digest : BitVec 512) : BitVec 512 :=
  BitVec.ofNat 512 (bytesNat (shake256 (natBytes 64 slot.toNat ++ natBytes 64 digest.toNat) 64))
/-- The 64-byte SHAKE256 digest of bytes (R391). -/
def digestOf (bs : List Byte) : BitVec 512 := BitVec.ofNat 512 (bytesNat (shake256 bs 64))
/-- A slot of a partition extended. -/
def State.measure (s : State) (p slot : Nat) (d : BitVec 512) : State :=
  s.updPart p fun x => { x with slots := Tab.set 0 x.slots slot (extend (Tab.get 0 x.slots slot) d) }

/-- The 32 bytes of a window-table entry (R362). -/
def Window.bytes (w : Window) : List Byte :=
  natBytes 8 w.base ++ natBytes 8 w.length ++ natBytes 2 w.rights.toNat ++ natBytes 1 w.up.toNat ++ natBytes 1 w.taint.toNat ++
  natBytes 1 w.written.toNat ++ natBytes 11 0

/-- Shrouds of the set that shroud k's fields name. -/
def State.setOf (s : State) (k : Nat) : List Nat :=
  (List.range 8).filter fun j => decide ((s.shroud k).partFirst ≤ j) && decide (j < (s.shroud k).partFirst + 2 ^ (s.shroud k).partLog2)

/-- An open by way of shroud n (R361, R391): the set's gates open together and the partition begins, each shroud's commit log
at a place of its stack that the manual does not name (R261; log entry 20); a refused open counts in the audit. -/
def State.openShroud (s : State) (n : Nat) : State :=
  let h := s.shroud n
  let set := s.setOf n
  if h.state ≠ .off then s
  else if s.boot ≠ 0xFF ∨ s.stoppedByHeat ∨ h.partFirst % 2 ^ h.partLog2 ≠ 0 ∨ !set.contains n ∨
      !(set.all fun j => (s.shroud j).state == .off && (s.shroud j).partFirst == h.partFirst && (s.shroud j).partLog2 == h.partLog2) then
    s.updShroud n fun h => { h with refused := bump32 h.refused }
  else
    let p := h.partFirst
    let s := set.foldl (fun (s : State) j => s.tick.updShroud j fun h =>
      { h with state := .ready, gateClosed := false, logPlace := some ((Config.freeWord s.freeCtr).toNat % 2 ^ 30 * 64) }) s
    let s := s.setPart p { Part.reset with keyGen := (s.part p).keyGen + 1, windows := (s.part p).windows }
    let s := s.measure p 4 (Config.shapeDigest p h.partLog2)
    (List.range 8).foldl (fun (s : State) q =>
      (s.part q).windows.foldl (fun (s : State) e =>
        match e.2 with
        | some w => if w.length ≠ 0 ∧ (q = p ∨ field w.rights.toNat (2 * p) 2 ≠ 0) then s.measure p 5 (digestOf w.bytes) else s
        | none => s) s) s

/-- SHROUD_OPEN (R361). -/
def execShroudOpen (k : BitVec 3) (s : State) : Host.Outcome State Fault Refusal :=
  .next (if s.mboxExists .pf then s.openShroud k.toNat else s)

/-- A launch of a partition that is reset (R365): faulted, code killed, tainted, whatever it waits for. -/
def State.killAll (s : State) (p : Nat) : State :=
  (List.range s.launches.length).foldl (fun (s : State) i =>
    match s.launches[i]? with
    | some l => if l.p = p ∧ l.stage ≠ .final then (s.updLaunch i fun x => { x with owed := [], claim := [], kept := false }).endLaunch i 11 2 { code := 11, source := 2 } else s
    | none => s) s

/-- What a reset of partition p begins with (R365, R366, R368): gates close, its windows go down, contexts stop without a
record, launches end, pod windows are withdrawn, taint is marked. -/
def State.beginReset (s : State) (p : Nat) : State :=
  if (s.shroud p).state ≠ .ready then s
  else
    let set := s.setOf p
    let down (e : Nat × Option Window) : Nat × Option Window := (e.1, e.2.map fun w => { w with up := false })
    let ups := (s.part p).windows.filter fun e => match e.2 with | some w => w.up && w.length != 0 | none => false
    let s := set.foldl (fun (s : State) j => s.updShroud j fun h => { h with state := .draining, gateClosed := true }) s
    let s := s.updPart p fun x => { x with windows := x.windows.map down, pod := [], faultCount := 0, lendPools := [], flips := [], hostWaits := [] }
    let s := ups.foldl (fun (s : State) e => s.notice .pf 7 p 0 e.1) s
    (s.killAll p).markTaint p

/-- SHROUD_RESET (R361, R365): cmd 1 of a shroud that is ready; one that is off belongs to no partition, whatever its fields name. -/
def execShroudReset (k : BitVec 3) (s : State) : Host.Outcome State Fault Refusal :=
  .next (if s.mboxExists .pf ∧ (s.shroud k.toNat).state = .ready then s.beginReset (s.shroud k.toNat).partFirst else s)

/-- VF_FUNCTION_LEVEL_RESET (R396): the partition of the function is reset alone. -/
def execVfFunctionLevelReset (p : BitVec 3) (s : State) : Host.Outcome State Fault Refusal :=
  .next (if (s.shroud p.toNat).partFirst = p.toNat then s.beginReset p.toNat else s)

/-- A request cut by the reset of partition p (R366): another partition's load is aborted, its store lost; of the reset partition's
own, each 16-byte piece of a write into another's window lands whole or not at all, which the manual leaves open (log entry 11). -/
def State.cutReq (s : State) (p : Nat) (r : Req) : State :=
  let mine := s.inPart p (r.g / 16)
  let here := s.ownerPart (s.partOf (r.g / 4)) (r.line * 128) == p
  if !mine && !here then s
  else if !mine then
    let s := s.dropReq r.id
    match r.load with
    | some l => { s with loads := s.loads.map fun (x : GLoad) => if x.id = l then { x with abort := true, asked := x.asked - 1 } else x }
    | none => s
  else
    let n := s.freeCtr
    let w : Writer := { tag := r.tag, p := p, keep := none }
    let landed := if here ∨ r.kind ≠ .write then [] else r.data.filter fun e => Config.freeBool (n + e.1 % 128 / 16)
    ({ (if landed = [] then s else s.lineWrite w r.line landed) with freeCtr := n + 8 }).dropReq r.id

/-- SHROUD_DRAIN_END (R365, R366, R368): transactions still crossing are cut, the windows they wrote are tainted, and the partition
is zeroised from now on. -/
def execShroudDrainEnd (k : BitVec 3) (s : State) : Host.Outcome State Fault Refusal :=
  let p := (s.shroud k.toNat).partFirst
  if (s.shroud k.toNat).state ≠ .draining then .next s
  else
    let s := (s.reqs.foldl (fun (s : State) r => s.cutReq p r) s).markTaint p
    let s : State := { s with threads := s.threads.filter fun t => t.p != p }
    .next ((s.setOf p).foldl (fun (s : State) j => s.updShroud j fun h => { h with state := .zeroising }) s)

/-- A core as zeroising leaves it: reefing and the maps of spares persist (R365). -/
def Core.zeroed (c : Core) : Core :=
  { Core.reset with health := c.health, rowMap := c.rowMap, colMap := c.colMap, ckCol := c.ckCol }

/-- A shroud as zeroising leaves it: its fields of SHROUD.CFG, its audit, its power registers and quarantined ways persist. -/
def Shroud.zeroed (h : Shroud) (k : Nat) : Shroud :=
  { Shroud.reset k with
    partFirst := h.partFirst, partLog2 := h.partLog2, probes := h.probes, refused := h.refused, clk := h.clk, watts := h.watts
    qways := h.qways }

/-- Everything a partition holds is written to zero (R365); its window table stays, every window down (R366). -/
def State.zeroise (s : State) (p : Nat) : State :=
  let set := s.setOf p
  let s : State := { s with mem := Tab.keep (fun a _ => !(decide (a < hbmTop) && set.contains (a / 2 ^ 36))) s.mem }
  let s := set.foldl (fun (s : State) j =>
    let s := (List.range 4).foldl (fun (s : State) c => s.updCore (4 * j + c) Core.zeroed) s
    let s := (List.range 16).foldl (fun (s : State) c => s.setCtx (16 * j + c) Ctx.reset) s
    s.updShroud j fun h => h.zeroed j) s
  s.updPart p fun x => { Part.reset with notes := x.notes, keyGen := x.keyGen, windows := x.windows }

/-- SHROUD_ZEROISE_END (R365, R381): the shrouds are off; notices of kind 1 on the package ring and the partition's. -/
def execShroudZeroiseEnd (k : BitVec 3) (s : State) : Host.Outcome State Fault Refusal :=
  let p := (s.shroud k.toNat).partFirst
  if (s.shroud k.toNat).state ≠ .zeroising then .next s
  else
    let s := s.zeroise p
    .next ((s.notice .pf 1 p 0 0).notice (.vf (BitVec.ofNat 3 p)) 1 p 0 0)

/-- SHROUD.GATE_AUDIT (R364). -/
def Shroud.gateAudit (h : Shroud) : Word := BitVec.ofNat 64 (h.probes * 2 ^ 32 + h.refused)

/-- GATE_AUDIT_READ (R364): the register is read; its counts are cleared. -/
def execGateAuditRead (k : BitVec 3) (s : State) : Host.Outcome State Fault Refusal :=
  .next (if s.mboxExists .pf then
    { s with hostRead := (s.shroud k.toNat).gateAudit }.updShroud k.toNat fun h => { h with probes := 0, refused := 0 } else s)

/-- Whether a mapping's frame number lies in the physical space of its type (log entry 7). What lies there its accesses meet: a frame
that is no HBM of the partition or of an open window is refused at the gates (R363), and no device answers for pool that no decoder
covers (R385). -/
def frameFits (m : PageMap) : Bool := decide (m.frame < 2 ^ 35)

/-- Whether accesses of partition p that were translated under a mapping have not been accepted at their homes yet (R351): requests,
words unpublished on a core, stores buffered in a segment, the piece of 4 KiB that a copy stands in. -/
def State.underMap (s : State) (p v : Nat) (m : PageMap) : Bool :=
  let inIt (a : Nat) : Bool := a / 65536 == pagePa m 0 / 65536
  (s.reqs.any fun r => s.partOf (r.g / 4) == p && inIt (r.line * 128)) ||
  ((s.partCores p).any fun k => (s.core k).unpub.any fun e => inIt e.1) ||
  ((List.range 128).any fun g => s.inPart p (g / 16) && (s.ctx g).seg.any fun q => q.stores.any fun st => inIt st.pa) ||
  ((s.partCores p).any fun k => (List.range 16).any fun ch =>
    (s.copyAt k ch).any fun c => !c.1.enters c.2.2 && Tab.get none c.1.pages v == some m && s.batchTouches k c.1 c.2.2 fun l => inIt (l * 128))

/-- TRANSLATION_CHANGE (R351): with every access under the old entry accepted at its home, the page takes its new mapping, or
none, and no TLB knows the old one; until then the controller has the page's unpublished words published, and the change waits. A
retired frame is never handed out again (R341). -/
def execTranslationChange (p : BitVec 3) (vpage : BitVec 48) (map : Option PageMap) (s : State) : Host.Outcome State Fault Refusal :=
  let pn := p.toNat
  let v := vpage.toNat
  let old := Tab.get none (s.part pn).pages v
  let lost (m : PageMap) : Bool := !frameFits m || ((m.mtype == .hbm || m.mtype == .window) && s.retired.contains m.frame)
  if 2 ^ 39 ≤ v ∨ !s.partOpen pn ∨ map.any lost then .next s
  else if old.any (s.underMap pn v) then
    .next ((s.partCores pn).foldl (fun (s : State) k => s.publish k fun a _ => old.any fun m => a / 65536 == pagePa m 0 / 65536) s)
  else
    let s := s.updPart pn fun x => { x with pages := Tab.set none x.pages v map }
    .next ((s.partCores pn).foldl (fun (s : State) k => s.updCore k fun c => { c with tlb := Tab.set none c.tlb v none }) s)

end Sys2Proof.Machine
end

