-- ==== Sys2Proof/Machine/MailEvents.lean ====
section
/-! DEFINITION. Mailbox commands (R377 to R379): stores, pod windows, spindle control, record areas, pins and classes, images, window tables, privileges, lending pools, the time master, firmware. -/

namespace Sys2Proof.Machine

/-- The commands of each mailbox (R378). -/
def vfCommands : List Nat := [1, 2, 3, 4, 5, 6, 7, 8, 9]
def pfCommands : List Nat := [0x11, 0x12, 0x13, 0x14, 0x15, 0x20, 0x21, 0x22, 0x23, 0x24, 0x30]

/-- The 512 bytes of a command block in host memory (R377). -/
def State.block (s : State) (mb : Mbox) : List Byte := Mem.readBytes s.mem (hostBase + (s.mailOf mb).arg.toNat) 512

/-- A field of a block, and whether every byte that no field covers is zero (R379). -/
def blkN (b : List Byte) (off n : Nat) : Nat := bytesNat ((b.drop off).take n)
def onlyFields (b : List Byte) (fs : List (Nat × Nat)) : Bool :=
  b.zipIdx.all fun e => e.1 == 0 || fs.any fun f => decide (f.1 ≤ e.2) && decide (e.2 < f.1 + f.2)

/-- A command as R377 runs it: refused while one runs, on the wrong mailbox, or with a block against R379; else its work, its
answer or its error. -/
def State.command (s : State) (mb : Mbox) (tag : BitVec 8) (cmd : Nat) (fields : List (Nat × Nat))
    (run : State → List Byte → Except Nat (State × Nat)) : Host.Outcome State Fault Refusal :=
  if !s.mboxExists mb then .next s
  else
    let m := s.mailOf mb
    let t := tag.toNat
    let mine : Bool := match mb with
      | .pf => pfCommands.contains cmd
      | .vf _ => vfCommands.contains cmd
    if m.state = 1 then .next (s.setMail mb { m with code := 2 })
    else
      let s := s.setMail mb { m with cmd := cmd, tag := t }
      if !mine then .next (s.mailEnd mb t 4 0)
      else if m.arg.toNat % 512 ≠ 0 ∨ !onlyFields (s.block mb) fields then .next (s.mailEnd mb t 3 0)
      else
        match run s (s.block mb) with
        | .error e => .next (s.mailEnd mb t e 0)
        | .ok (s, a) => .next (s.mailEnd mb t 0 a)

/-- The partition of a partition mailbox. -/
def mboxPart : Mbox → Nat
  | .pf => 0
  | .vf p => p.toNat

/-- The field limits of a store descriptor (R262, R280). -/
def Store.descOk (t : Store) : Bool :=
  t.n 0 1 == 1 && [4, 8, 16, 32, 64].contains t.T && decide (1 ≤ t.H) && decide (t.H ≤ 64) && [64, 96, 128, 192, 256].contains t.D &&
  (t.n 6 1 == 1 || t.n 6 1 == 3) && decide (t.n 7 1 < 64) && t.n 8 8 % 64 == 0 && decide (2 ≤ t.slots) && decide (t.slots ≤ 2 ^ 20) &&
  decide (t.n 32 4 ≤ t.slots - 1) && decide (t.n 36 1 ≤ 16) && t.n 40 8 % 16 == 0 && t.n 48 8 % 8 == 0 &&
  ((List.range 6).all fun i => t.pool i 0 8 % 65536 == 0 && t.pool i 8 8 % 16 == 0 && decide (t.pool i 16 4 ≤ 2 ^ 24) && decide (t.top i ≤ t.pool i 16 4)) &&
  t.n 208 6 == 0

/-- Whether a store is in use: a slot live, or a block held (R262). -/
def State.storeLive (s : State) (p : Nat) (t : Store) : Bool :=
  ((List.range t.slots).any fun slot => (s.seqN p t slot 1 1).testBit 0) ||
  (List.range 6).any fun i => (List.range (t.pool i 16 4)).any fun b => decide (0 < s.refs p t ⟨i % 3, i / 3, b, none⟩)

/-- The borrowed frames that a store's table names as it is configured (R269, R271, R398): through the first import window of
their lender; the frame size is not recorded (log entry 11). -/
def State.lendsOf (s : State) (p : Nat) (t : Store) : List (Nat × Nat × Nat × Nat) :=
  if t.n 36 1 = 0 then []
  else
    (List.range (2 ^ t.n 36 1)).filterMap fun j =>
      let w := s.kvN p (t.n 40 8 + 16 * j) 8
      if field w 48 16 = 0 then none
      else
        let chip := field w 30 12
        let win := ((s.part p).pod.findSome? fun e => match e.2 with | some x => if x.imp && x.chip == chip then some x.remoteId else none | none => none).getD 0
        some (field w 0 24, chip, win, field (Config.freeWord s.freeCtr).toNat 0 16 * 65536)

/-- MBOX_CONFIGURE_STORE (R262, R398): the scrubber runs before the store takes its first instruction. -/
def execMboxConfigureStore (mb : Mbox) (tag : BitVec 8) (s : State) : Host.Outcome State Fault Refusal :=
  s.command mb tag 0x01 [(0, 1), (64, 256)] fun s b =>
    let p := mboxPart mb
    let id := blkN b 0 1
    let t : Store := { desc := (b.drop 64).take 256, rsv := [], lends := [], moves := [] }
    if 63 < id ∨ !t.descOk then .error 3
    else if (s.storeOf p id).any fun o => s.storeLive p o then .error 6
    else
      let s1 := s.tick
      let t := { t with lends := s.lendsOf p t, place := some ((Config.freeWord s1.freeCtr).toNat % (s.partSize p * 2 ^ 28) * 256) }
      let s := s1.tick.updPart p fun x => { x with stores := Tab.set none x.stores id (some t) }
      .ok ((s.descWrite p t).scrub p id, 0)

/-- MBOX_UNCONFIGURE_STORE (R262, R378). -/
def execMboxUnconfigureStore (mb : Mbox) (tag : BitVec 8) (s : State) : Host.Outcome State Fault Refusal :=
  s.command mb tag 0x02 [(0, 1)] fun s b =>
    let p := mboxPart mb
    let id := blkN b 0 1
    if 63 < id then .error 3
    else if (s.storeOf p id).any fun o => s.storeLive p o then .error 6
    else .ok ((s.updStore p id fun t => t.put 0 1 0).updPart p fun x => { x with stores := Tab.set none x.stores id none }, 0)

/-- MBOX_REGISTER_POD_WINDOW (R204, R371). -/
def execMboxRegisterPodWindow (mb : Mbox) (tag : BitVec 8) (s : State) : Host.Outcome State Fault Refusal :=
  s.command mb tag 0x03 [(0, 2), (64, 64)] fun s b =>
    let p := mboxPart mb
    let id := blkN b 0 2
    let r := (b.drop 64).take 64
    if 1023 < id ∨ !podRecOk r then .error 3
    else if (Tab.get none (s.part p).pod id).isSome then .error 6
    else .ok (s.updPart p fun x => { x with pod := Tab.set none x.pod id (some (podOf r)) }, 0)

/-- MBOX_WITHDRAW_POD_WINDOW (R378). -/
def execMboxWithdrawPodWindow (mb : Mbox) (tag : BitVec 8) (s : State) : Host.Outcome State Fault Refusal :=
  s.command mb tag 0x04 [(0, 2)] fun s b =>
    if 1023 < blkN b 0 2 then .error 3
    else .ok (s.updPart (mboxPart mb) fun x => { x with pod := Tab.set none x.pod (blkN b 0 2) none }, 0)

/-- MBOX_SET_SPN_CTL (R299): the reserved field must be zero. -/
def execMboxSetSpnCtl (mb : Mbox) (tag : BitVec 8) (s : State) : Host.Outcome State Fault Refusal :=
  s.command mb tag 0x05 [(0, 8)] fun s b =>
    let v := blkN b 0 8
    if field v 8 24 ≠ 0 then .error 3 else .ok (s.updPart (mboxPart mb) fun x => { x with spnCtl := BitVec.ofNat 64 v }, 0)

/-- MBOX_SET_FAULT_RECORD_AREA (R342, R379). -/
def execMboxSetFaultRecordArea (mb : Mbox) (tag : BitVec 8) (s : State) : Host.Outcome State Fault Refusal :=
  s.command mb tag 0x06 [(0, 8), (8, 4), (16, 8)] fun s b =>
    let base := blkN b 0 8
    let n := blkN b 8 4
    let ctr := blkN b 16 8
    if base % 64 ≠ 0 ∨ ctr % 8 ≠ 0 ∨ !((List.range 21).any fun i => decide (4 ≤ i) && n == 2 ^ i) then .error 3
    else .ok (s.updPart (mboxPart mb) fun x =>
      { x with faultBase := BitVec.ofNat 64 base, faultCount := n, faultCtr := BitVec.ofNat 64 ctr, faultWritten := 0 }, 0)

/-- MBOX_SET_TRAP_RECORDS (R379): a context in its handler takes the new value at its ERET. -/
def execMboxSetTrapRecords (mb : Mbox) (tag : BitVec 8) (s : State) : Host.Outcome State Fault Refusal :=
  s.command mb tag 0x07 [(0, 8), (8, 8)] fun s b =>
    let p := mboxPart mb
    let base := blkN b 0 8
    let stride := blkN b 8 8
    if base % 256 ≠ 0 ∨ stride % 256 ≠ 0 ∨ stride < 21760 then .error 3
    else
      let s := s.updPart p fun x => { x with trapBase := BitVec.ofNat 64 base, trapStride := stride }
      .ok ((List.range 128).foldl (fun (s : State) g =>
        if s.inPart p (g / 16) && !(s.ctx g).regs.inHandler then
          s.updCtx g fun c => { c with regs := { c.regs with trapRec := s.trapRecOf g } } else s) s, 0)

/-- MBOX_SET_PIN_OR_CLASS (R269, R266, R379). -/
def execMboxSetPinOrClass (mb : Mbox) (tag : BitVec 8) (s : State) : Host.Outcome State Fault Refusal :=
  s.command mb tag 0x08 [(0, 8)] fun s b =>
    let p := mboxPart mb
    let what := blkN b 0 1
    let pool := blkN b 2 1
    let v := blkN b 3 1
    let n := blkN b 4 4
    match (if blkN b 1 1 ≤ 63 then s.storeOf p (blkN b 1 1) else none) with
    | none => .error 3
    | some t =>
      if what = 0 then
        if 5 < pool ∨ 1 < v ∨ t.pool pool 16 4 ≤ n then .error 3
        else .ok (s.putMeta (ctl p) t ⟨pool % 3, pool / 3, n, none⟩ 44 1 v, 0)
      else if what = 1 then
        if pool ≠ 0 ∨ 7 < v ∨ t.slots ≤ n then .error 3 else .ok (s.seqPut (ctl p) t n 2 1 v, 0)
      else .error 3

/-- MBOX_DECLARE_MEASURED_IMAGE (R379, R391): the named slot is extended with the image's digest. -/
def execMboxDeclareMeasuredImage (mb : Mbox) (tag : BitVec 8) (s : State) : Host.Outcome State Fault Refusal :=
  s.command mb tag 0x09 [(0, 1), (8, 8), (16, 8)] fun s b =>
    let p := mboxPart mb
    let slot := blkN b 0 1
    let len := blkN b 16 8
    if slot < 6 ∨ 15 < slot ∨ len = 0 ∨ 2 ^ 32 < len then .error 3
    else .ok (s.measure p slot (digestOf (s.loadVa p (BitVec.ofNat 64 (blkN b 8 8)) len)), 0)

/-- A window-table entry as written over the old one: taint is cleared where written 1, and `written` with it (R362, R368). -/
def windowOf (b : List Byte) (old : Option Window) : Window :=
  let ack := BitVec.ofNat 8 (blkN b 51 1)
  let o := old.getD ⟨0, 0, 0, false, 0, 0⟩
  { base := blkN b 32 8, length := blkN b 40 8, rights := BitVec.ofNat 16 (blkN b 48 2), up := blkN b 50 1 == 1
    taint := o.taint &&& ~~~ack, written := o.written &&& ~~~ack }

/-- MBOX_WRITE_WINDOW_ENTRY (R362, R391): slot 5 of the owner and of every grantee takes the entry's digest. Length 0 marks the entry
unused; its taint and written bits stay as they are. -/
def execMboxWriteWindowEntry (mb : Mbox) (tag : BitVec 8) (s : State) : Host.Outcome State Fault Refusal :=
  s.command mb tag 0x11 [(0, 1), (1, 1), (32, 21)] fun s b =>
    let q := blkN b 0 1
    let i := blkN b 1 1
    let w := windowOf b (Tab.get none (s.part q).windows i)
    let inside := decide (q * 2 ^ 36 ≤ w.base) && decide (w.base + w.length ≤ (q + s.partSize q) * 2 ^ 36)
    if 7 < q ∨ !s.partOpen q ∨ 63 < i ∨ w.base % 65536 ≠ 0 ∨ w.length % 65536 ≠ 0 ∨ 1 < blkN b 50 1 ∨ (w.length ≠ 0 ∧ !inside) then .error 3
    else
      let wasUp := (Tab.get none (s.part q).windows i).any fun o => o.up && o.length != 0
      let s := s.updPart q fun x => { x with windows := Tab.set none x.windows i (some w) }
      let s := if wasUp && (!w.up || w.length == 0) then s.notice .pf 7 q 0 i else s
      .ok ((List.range 8).foldl (fun (s : State) p =>
        if s.partOpen p && (p == q || field w.rights.toNat (2 * p) 2 != 0) then s.measure p 5 (digestOf w.bytes) else s) s, 0)

/-- MBOX_HELD_LAUNCH_PRIVILEGE (R220, R378). -/
def execMboxHeldLaunchPrivilege (mb : Mbox) (tag : BitVec 8) (s : State) : Host.Outcome State Fault Refusal :=
  s.command mb tag 0x12 [(0, 2)] fun s b =>
    let p := blkN b 0 1
    if 7 < p ∨ !s.partOpen p ∨ 1 < blkN b 1 1 then .error 3
    else .ok (s.updPart p fun x => { x with privilege := blkN b 1 1 == 1 }, 0)

/-- MBOX_OFFER_LENDING_POOL (R388): every frame of the pool is free. -/
def execMboxOfferLendingPool (mb : Mbox) (tag : BitVec 8) (s : State) : Host.Outcome State Fault Refusal :=
  s.command mb tag 0x13 [(0, 1), (2, 2), (4, 4), (8, 4)] fun s b =>
    let p := blkN b 0 1
    let win := blkN b 2 2
    let size := blkN b 4 4
    let n := blkN b 8 4
    if 7 < p ∨ !s.partOpen p ∨ size = 0 ∨ size % 65536 ≠ 0 ∨ n = 0 ∨ 2 ^ 24 < n then .error 3
    else
      match Tab.get none (s.part p).pod win with
      | none => .error 3
      | some w =>
        if w.imp || decide (w.length < n * size) then .error 3
        else if (Tab.get none (s.part p).lendPools win).isSome then .error 6
        else .ok (s.setPool p win { size := size, free := List.range n, lent := [], withdrawn := false }, 0)

/-- MBOX_WITHDRAW_LENDING_POOL (R282, R378): no frame is offered from now on; the command ends once every frame is home. -/
def execMboxWithdrawLendingPool (mb : Mbox) (tag : BitVec 8) (s : State) : Host.Outcome State Fault Refusal :=
  let m := s.mailOf mb
  let p := blkN (s.block mb) 0 1
  let out := (s.part p).lendPools.any fun e => match e.2 with | some l => l.lent != [] | none => false
  let withdraw (s : State) : State :=
    s.updPart p fun x => { x with lendPools := x.lendPools.map fun e => (e.1, e.2.map fun l => { l with withdrawn := true }) }
  if mb = .pf ∧ s.mboxExists mb ∧ m.state ≠ 1 ∧ m.arg.toNat % 512 = 0 ∧ onlyFields (s.block mb) [(0, 1)] ∧ p ≤ 7 ∧ s.partOpen p ∧ out then
    .next ((withdraw s).setMail mb { m with cmd := 0x14, tag := tag.toNat, part := p, state := 1, code := 0 })
  else
    s.command mb tag 0x14 [(0, 1)] fun s _ =>
      if 7 < p ∨ !s.partOpen p then .error 3 else .ok ((withdraw s).poolHome p, 0)

/-- MBOX_SET_TIME_MASTER (R394). -/
def execMboxSetTimeMaster (mb : Mbox) (tag : BitVec 8) (s : State) : Host.Outcome State Fault Refusal :=
  s.command mb tag 0x15 [(0, 2)] fun s b =>
    if 4096 ≤ blkN b 0 2 then .error 3 else .ok ({ s with chipMaster := BitVec.ofNat 12 (blkN b 0 2) }, 0)

/-- MBOX_FIRMWARE_UPDATE (R390, R397): a good image goes to flash and runs from the next package reset. -/
def execMboxFirmwareUpdate (mb : Mbox) (tag : BitVec 8) (s : State) : Host.Outcome State Fault Refusal :=
  s.command mb tag 0x30 [(0, 8), (8, 8)] fun s b =>
    let img := Mem.readBytes s.mem (hostBase + blkN b 0 8) (blkN b 8 8)
    if Config.imageSignatureGood img && decide (Config.fusedMinimum.toNat ≤ (Config.imageVersion img).toNat) then
      .ok ({ s with fwFlash := img }, 0)
    else .error 3

/-- MBOX_UNKNOWN_COMMAND (R377, R378): an unknown code fails with error 1, one of the other mailbox with error 4. -/
def execMboxUnknownCommand (mb : Mbox) (tag : BitVec 8) (cmd : BitVec 8) (s : State) : Host.Outcome State Fault Refusal :=
  let n := cmd.toNat
  let m := s.mailOf mb
  let mine : Bool := match mb with
    | .pf => pfCommands.contains n
    | .vf _ => vfCommands.contains n
  if !s.mboxExists mb ∨ mine then .next s
  else if m.state = 1 then .next (s.setMail mb { m with code := 2 })
  else
    .next ((s.setMail mb { m with cmd := n }).mailEnd mb tag.toNat (if pfCommands.contains n || vfCommands.contains n then 4 else 1) 0)

end Sys2Proof.Machine
end

