-- ==== Sys2Proof/Machine/MigrateEvents.lean ====
section
/-! DEFINITION. Moving a partition: start, round, pause, save, restore (R285, R379, R389). -/

namespace Sys2Proof.Machine

/-- The partition a migration block names, if it is open and stands at the step the command follows (R389). -/
def State.migAt (s : State) (b : List Byte) (stage : Nat) : Option Nat :=
  let p := Sys2Proof.Machine.blkN b 0 1
  if p ≤ 7 ∧ s.partOpen p ∧ (s.part p).migration = stage then some p else none

/-- MIGRATE_START (R285, R389): every configured store tracks its blocks; the page log begins. -/
def execMigrateStart (mb : Mbox) (tag : BitVec 8) (s : State) : Host.Outcome State Fault Refusal :=
  s.command mb tag 0x20 [(0, 1), (8, 8)] fun s b =>
    match s.migAt b 0 with
    | none => .error 3
    | some p =>
      if blkN b 8 8 % 4096 ≠ 0 then .error 3
      else
        let track (t : Store) : Store := t.put 7 1 (t.n 7 1 ||| 4)
        let s := s.updPart p fun x => { x with migration := 1, migBitmap := BitVec.ofNat 64 (blkN b 8 8) }
        .ok ((s.part p).stores.foldl (fun (s : State) e => s.updStore p e.1 track) s, 0)

/-- The pages of a partition's HBM whose bit is set in the bitmap, in ascending order. -/
def State.dirtyPages (s : State) (p : Nat) : List Nat :=
  let a := hostBase + (s.part p).migBitmap.toNat
  let n := s.partSize p * 2 ^ 17
  (s.mem.filter fun e => decide (a ≤ e.1) && decide (e.1 < a + n)).flatMap fun e =>
    ((List.range 8).filter fun i => e.2.getLsbD i).map fun i => (e.1 - a) * 8 + i

/-- Every block of a store: those of its pools, and its borrowed frames. -/
def State.allBlocks (s : State) (p id : Nat) : List Blk :=
  match s.storeOf p id with
  | none => []
  | some t => t.poolBlks ++ s.frameBlks p t

/-- The blocks a round copies of one store: those of its log, or every block marked when the log overflowed (R285). -/
def State.dirtyBlocks (s : State) (p id : Nat) : List (Nat × Blk) :=
  match s.storeOf p id with
  | none => []
  | some t =>
    let head := t.n 60 4
    if head.testBit 31 then ((s.allBlocks p id).filter fun b => (s.meta0 p t b).testBit 43).map fun b => (id, b)
    else
      (List.range (head % 2 ^ 31)).map fun i => (id, t.blkOfRef (field (s.kvN p (t.n 48 8 + 8 * i) 8) 0 32))

/-- A block's bytes: its data slots, its layer masks, its scale runs, as R264 lays them out with count 1. -/
def State.blockBytes (s : State) (p : Nat) (t : Store) (b : Blk) : List Byte :=
  let run (part n : Nat) : List Byte := (List.range t.L).flatMap fun l => natBytes n (s.blkN p t b part l 0 n)
  run 0 (t.slotB b.fmt) ++ run 1 8 ++ run 2 (t.scaleB b.fmt)

/-- The header of an item of a round (R379): its kind, its address or block reference. -/
def itemHead (kind ref : Nat) : List Byte := natBytes 8 kind ++ natBytes 8 ref

/-- Pages go to the buffer, each bit cleared before its page is copied, while there is room: the state, the place and count
reached, and whether dirty ones remain. -/
def copyPages (p at_ room : Nat) (n : Nat) : List Nat → State → State × Nat × Nat × Bool
  | [], s => (s, at_, n, false)
  | pg :: r, s =>
    if room < 65552 then (s, at_, n, true)
    else
      let a := hostBase + (s.part p).migBitmap.toNat + pg / 8
      let s : State := { s with mem := Mem.write s.mem a (Mem.read s.mem a &&& ~~~(BitVec.ofNat 8 (2 ^ (pg % 8)))) }
      let from_ := p * 2 ^ 36 + pg * 65536
      let s := s.homeStore (ctl p) at_ (itemHead 0 (pg * 65536) ++ s.homeBytes from_ 65536)
      copyPages p (at_ + 65552) (room - 65552) (n + 1) r s

/-- Blocks go to the buffer likewise; one that no longer fits leaves its store's log as overflowed (log entry 41). -/
def copyBlocks (p at_ room : Nat) (n : Nat) (left : Bool) : List (Nat × Blk) → State → State × Nat × Bool
  | [], s => (s, n, left)
  | (id, b) :: r, s =>
    match s.storeOf p id with
    | none => copyBlocks p at_ room n left r s
    | some t =>
      let size := 16 + t.blockB b.fmt
      if room < size then
        copyBlocks p at_ room n true r (s.updStore p id fun t => t.put 60 4 (2 ^ 31 + t.n 60 4 % 2 ^ 31))
      else
        let s := s.putMeta (ctl p) t b 43 1 0
        let s := s.homeStore (ctl p) at_ (itemHead 1 (id * 2 ^ 32 + b.ref) ++ s.blockBytes p t b)
        copyBlocks p (at_ + size) (room - size) (n + 1) left r s

/-- One round of copying into a buffer (R285, R379, R389): its answer. -/
def State.migRound (s : State) (p buf len : Nat) : State × Nat :=
  let ids := ((s.part p).stores.filter fun e => e.2.isSome).map (·.1)
  let blocks := ids.flatMap fun id => s.dirtyBlocks p id
  let s := ids.foldl (fun (s : State) id => s.updStore p id fun t => t.put 60 4 0) s
  let (s, at_, n, more) := copyPages p (hostBase + buf) len 0 (s.dirtyPages p) s
  let (s, n, more) := copyBlocks p at_ (hostBase + buf + len - at_) n more blocks s
  (s, n % 2 ^ 31 + (if more then 2 ^ 31 else 0))

/-- MIGRATE_ROUND (R285, R389). -/
def execMigrateRound (mb : Mbox) (tag : BitVec 8) (s : State) : Host.Outcome State Fault Refusal :=
  s.command mb tag 0x21 [(0, 1), (8, 8), (16, 8)] fun s b =>
    match s.migAt b 1 with
    | none => .error 3
    | some p =>
      if blkN b 8 8 % 4096 ≠ 0 ∨ blkN b 16 8 % 4096 ≠ 0 then .error 3 else .ok (s.migRound p (blkN b 8 8) (blkN b 16 8))

/-- Whether a paused partition has come to rest (R389 step 0x22). -/
def State.pauseDone (s : State) (p : Nat) : Bool :=
  ((List.range 128).all fun g => !s.inPart p (g / 16) || (s.ctx g).unit.isNone) &&
  (s.threads.all fun t => t.p != p) &&
  (s.partCores p).all fun k => (s.core k).halyard == [] && (s.core k).engq == [] && (s.core k).journal == []

/-- The partition's pod windows are withdrawn, each with a notice of kind 7 on its ring (R389). -/
def State.withdrawPods (s : State) (p : Nat) : State :=
  let ids := ((s.part p).pod.filter fun e => e.2.isSome).map (·.1)
  ids.foldl (fun (s : State) i => s.notice (.vf (BitVec.ofNat 3 p)) 7 p 0 i) (s.updPart p fun x => { x with pod := [] })

/-- MIGRATE_PAUSE (R389): dispatch stops and every context is pre-empted after a KVSYNC at PART; once the partition is at rest its pod windows are
withdrawn and the command ends. `goOn` is the end of the wait. -/
def execMigratePause (mb : Mbox) (tag : BitVec 8) (goOn : Bool) (s : State) : Host.Outcome State Fault Refusal :=
  let m := s.mail
  if goOn then
    if m.state = 1 ∧ m.cmd = 0x22 ∧ s.pauseDone m.part then .next ((s.withdrawPods m.part).mailEnd .pf m.tag 0 0) else .next s
  else
    let b := s.block .pf
    match (if mb = .pf ∧ s.mboxExists mb ∧ m.state ≠ 1 ∧ m.arg.toNat % 512 = 0 ∧ onlyFields b [(0, 1)] then s.migAt b 1 else none) with
    | some p =>
      let s := (s.partCores p).foldl (fun (s : State) k => s.preemptCore k) s
      let s := s.updPart p fun x => { x with migration := 2 }
      .next (s.setMail .pf { m with cmd := 0x22, tag := tag.toNat, part := p, state := 1, code := 0 })
    | none => s.command mb tag 0x22 [(0, 1)] fun _ _ => .error 3

/-- What is saved of a core: its split, the banks that saved units own, and their bytes. -/
def Core.saved (x : Core) : Core :=
  { Core.reset with split := x.split, banks := x.banks, ram := bankBytes x.ram (x.banks.map (·.1)) }

/-- The saved form of a partition (R389 step 0x23). -/
def State.image (s : State) (p : Nat) : Image :=
  let hi := (p + s.partSize p) * 2 ^ 36
  let cells := s.mem.filter fun e => decide (p * 2 ^ 36 ≤ e.1) && decide (e.1 < hi)
  { p := p, log2 := (s.shroud p).partLog2
    mem := cells.map fun e => (e.1 - p * 2 ^ 36, e.2)
    part := s.part p
    launches := (s.launches.zipIdx.filter fun e => e.1.p == p && e.1.stage != .final).map fun e => (e.2, e.1)
    cores := (s.partCores p).map fun k => (k - 4 * p, (s.core k).saved)
    commits := (List.range (s.partSize p)).map fun j => ((s.shroud (p + j)).logPlace, (s.shroud (p + j)).commits) }

/-- MIGRATE_SAVE (R379, R389): how long the saved state is, and its bytes, the manual leaves open (log entry 11). -/
def execMigrateSave (mb : Mbox) (tag : BitVec 8) (s : State) : Host.Outcome State Fault Refusal :=
  s.command mb tag 0x23 [(0, 1), (8, 8), (16, 8)] fun s b =>
    match s.migAt b 2 with
    | none => .error 3
    | some p =>
      let buf := blkN b 8 8
      let n := field (Config.freeWord s.freeCtr).toNat 0 32
      if buf % 4096 ≠ 0 ∨ blkN b 16 8 % 4096 ≠ 0 then .error 3
      else if blkN b 16 8 < n * 4096 then .error 5
      else
        let img := s.image p
        let bytes := (List.range (n * 4096)).map fun i => (Config.freeCell s.freeCtr i).setWidth 8
        let s := s.tick.homeStore (ctl 0) (hostBase + buf) bytes
        let s := s.updPart p fun x => { x with migration := 3 }
        .ok ({ s with images := Tab.set none s.images buf (some img) }, n)

/-- A work unit whose launch stands at another place of the task graph; `m` gives the places. -/
def movedUnit (m : Nat → Nat) (u : Unit) : Unit := { u with launch := m u.launch }

/-- A saved launch on its target: the core mask, the save areas and the partition follow the shrouds (log entry 41). -/
def Launch.moved (l : Launch) (p q : Nat) (m : Nat → Nat) : Launch :=
  let mask := l.coreMask / 2 ^ (4 * p) * 2 ^ (4 * q)
  let area (v : Saved) : Saved :=
    { v with core := v.core - 4 * p + 4 * q, unit := movedUnit m v.unit
             ctx := { v.ctx with unit := v.ctx.unit.map (movedUnit m), taken := v.ctx.taken.map (movedUnit m), acts := v.ctx.acts.map m }
             unpub := v.unpub.map fun e => (e.1, { e.2 with tag := if e.2.tag = 0 then 0 else m (e.2.tag - 1) + 1 }) }
  { l with p := q, claim := [], kept := false, slice := l.slice - p + q, saved := l.saved.map area
           record := l.record.take 36 ++ natBytes 4 mask ++ l.record.drop 40 }

/-- The place each restored launch takes: its own where this package saved it and still holds it, else a new one (log entry 41). -/
def State.restorePlaces (s : State) (i : Image) : List Nat :=
  let here (e : Nat × Launch) : Bool :=
    (s.part i.p).migration == 3 && (s.launches[e.1]?).any fun x => x.id == e.2.id && x.p == i.p && x.stage != .final
  (i.launches.foldl (fun (a : List Nat × Nat) e => if here e then (a.1 ++ [e.1], a.2) else (a.1 ++ [a.2], a.2 + 1))
    ([], s.launches.length)).1

/-- A key of a barrier table on the target: those of DIE name the die, which follows the shrouds (log entry 34). -/
def movedBar (p q key : Nat) : Nat := if key < 256 then key else 256 + (((key - 256) / 128 + q / 2) - p / 2) * 128 + key % 128

/-- A mapping on the target: HBM frames follow the shrouds. -/
def movedPage (m : PageMap) (p q : Nat) : PageMap :=
  if m.mtype = .hbm then { m with frame := m.frame - p * 2 ^ 20 + q * 2 ^ 20 } else m

/-- The effect of a restore (R389): memory, structures, launches and save areas of an image enter partition q, which keeps its own
windows, pod windows, mailbox, ring, measurements and attestation key; dispatch resumes. -/
def State.restoreImage (s : State) (q : Nat) (i : Image) : State :=
  let lo := q * 2 ^ 36
  let hi := (q + s.partSize q) * 2 ^ 36
  let old := (s.mem.filter fun e => decide (lo ≤ e.1) && decide (e.1 < hi) && Mem.read i.mem (e.1 - lo) == 0).map fun e => (e.1, (0 : Byte))
  let s := s.homeWrite (ctl q) (old ++ i.mem.map fun e => (e.1 + lo, e.2))
  let x := s.part q
  let pages := i.part.pages.map fun e => (e.1, e.2.map fun m => movedPage m i.p q)
  let y : Part :=
    { i.part with
      pages := pages, hostBias := x.hostBias, flips := x.flips, hostWaits := x.hostWaits, biasReg := x.biasReg, biasRun := x.biasRun, windows := x.windows, pod := x.pod
      privilege := x.privilege, slots := x.slots, keyGen := x.keyGen, mail := x.mail, notes := x.notes, lendPools := x.lendPools
      migration := 0, migBitmap := 0 }
  let ls := i.launches.map (·.2)
  let places := s.restorePlaces i
  let m (j : Nat) : Nat := (((i.launches.map (·.1)).zip places).find? fun e => e.1 == j).elim j (·.2)
  let rsv (t : Store) : Store := { t with rsv := t.rsv.map fun r => (m r.1, r.2) }
  let s := s.setPart q { y with
    stores := y.stores.map fun e => (e.1, e.2.map rsv)
    bars := y.bars.map fun e => (movedBar i.p q e.1, e.2)
    barWait := y.barWait.map fun e => (movedBar i.p q e.1, e.2.map fun u => m (u / 2 ^ 40) * 2 ^ 40 + u % 2 ^ 40) }
  let s := i.commits.zipIdx.foldl (fun (s : State) e => s.updShroud (q + e.2) fun x => { x with logPlace := e.1.1, commits := e.1.2 }) s
  let s := i.cores.foldl (fun (s : State) e => s.updCore (4 * q + e.1) fun c =>
    { c with split := e.2.split, banks := e.2.banks, ram := e.2.ram, tlb := [] }) s
  let top := ls.foldl (fun n l => max n (l.id - Config.launchIdBase)) s.nextLaunch
  (ls.zip places).foldl (fun (s : State) e =>
    if e.2 < s.launches.length then s.updLaunch e.2 fun _ => e.1.moved i.p q m
    else { s with launches := s.launches ++ [e.1.moved i.p q m] }) { s with nextLaunch := top }

/-- The state a saved form of another package holds, by its bytes; the rules give no format (log entry 41). -/
opaque Config.savedImage : List Byte → Option Image

/-- The saved form at a host address: this package's own, or what the bytes of another package's hold. -/
def State.imageAt (s : State) (buf len : Nat) : Option Image :=
  match Tab.get none s.images buf with
  | some i => some i
  | none => Config.savedImage (s.homeBytes (hostBase + buf) len)

/-- MIGRATE_RESTORE (R379, R389): a saved state enters a partition of the same shape; bytes that hold none are refused (log entry
41). -/
def execMigrateRestore (mb : Mbox) (tag : BitVec 8) (s : State) : Host.Outcome State Fault Refusal :=
  s.command mb tag 0x24 [(0, 1), (8, 8), (16, 8)] fun s b =>
    match s.migAt b 0, s.imageAt (blkN b 8 8) (blkN b 16 8) with
    | some q, some i =>
      if (s.shroud q).partLog2 ≠ i.log2 then .error 3
      else .ok ({ s.restoreImage q i with images := Tab.set none s.images (blkN b 8 8) none }, 0)
    | _, _ => .error 3

end Sys2Proof.Machine
end

