-- ==== Sys2Proof/Machine/HostEvents.lean ====
section
/-! DEFINITION. The host's side: notice rings, page bias, host accesses, registers that reading clears, register writes (R299, R360, R361, R373, R375, R376, R380 to R384, R392). -/

namespace Sys2Proof.Machine

/-- Held notices written while the ring has room, their order kept (R381). -/
def State.drainNotes (mb : Mbox) : List (List Byte) → State → State
  | [], s => s.setRing mb { s.ring mb with held := [] }
  | e :: r, s =>
    let n := s.ring mb
    if (n.tail - n.head).toNat = 2 ^ (field n.ctl.toNat 0 4 + 6) then s.setRing mb { n with held := e :: r }
    else State.drainNotes mb r (s.putNotice mb e)

/-- NOTE.HEAD is written: the host has consumed entries (R380, R381). -/
def State.noteHead (s : State) (mb : Mbox) (v : Word) : State :=
  if !s.mboxExists mb then s
  else
    let s := s.setRing mb { s.ring mb with head := v }
    State.drainNotes mb (s.ring mb).held s

/-- NOTE_HEAD_WRITE (R380, R381). -/
def execNoteHeadWrite (mb : Mbox) (value : BitVec 64) (s : State) : Host.Outcome State Fault Refusal := .next (s.noteHead mb value)

/-- BIAS as a word: page, err, busy (R384). -/
def biasWord (page : Nat) (err busy : Bool) : Word := BitVec.ofNat 64 (page * 2 ^ 24 + err.toNat * 8 + busy.toNat * 4)

/-- A flip that has ended: busy clears where BIAS asked for it, a notice of kind 5 names the page (R384). -/
def State.flipEnded (s : State) (p page : Nat) : State :=
  let s := if (s.part p).biasRun = some page then s.updPart p fun x => { x with biasReg := x.biasReg &&& ~~~4, biasRun := none } else s
  s.notice (.vf (BitVec.ofNat 3 p)) 5 p 0 page

/-- A write of BIAS (R384): refused while busy or past the partition's HBM; at once over when the page has that bias. -/
def State.biasWrite (s : State) (p page op : Nat) : State :=
  let r := (s.part p).biasReg.toNat
  let frame := p * 2 ^ 20 + page
  if !s.mboxExists (.vf (BitVec.ofNat 3 p)) then s
  else if op = 0 ∨ op = 3 then s.updPart p fun x => { x with biasReg := biasWord page (r.testBit 3) (r.testBit 2) }
  else if r.testBit 2 then s.updPart p fun x => { x with biasReg := x.biasReg ||| 8 }
  else if s.partSize p * 2 ^ 20 ≤ page then s.updPart p fun x => { x with biasReg := biasWord page true false }
  else
    let s := s.updPart p fun x => { x with biasReg := biasWord page false true, biasRun := some page }
    if (s.part p).hostBias.contains frame == (op == 1) && !(s.part p).flips.any (fun f => f.1 == frame) then s.flipEnded p page
    else s.updPart p fun x => { x with flips := x.flips ++ [(frame, op == 1)] }

/-- BIAS_TO_HOST (R384): op 1. -/
def execBiasToHost (p : BitVec 3) (page : BitVec 23) (s : State) : Host.Outcome State Fault Refusal :=
  .next (s.biasWrite p.toNat page.toNat 1)

/-- BIAS_TO_DEVICE (R384): op 2. -/
def execBiasToDevice (p : BitVec 3) (page : BitVec 23) (s : State) : Host.Outcome State Fault Refusal :=
  .next (s.biasWrite p.toNat page.toNat 2)

/-- Every registration, copy and dirty line of a page given up (R383 step 3). -/
def State.clearPage (s : State) (frame : Nat) : State :=
  let inP (line : Nat) : Bool := line * 128 / 65536 == frame
  let p := (s.shroud (frame / 2 ^ 20)).partFirst
  let lines := ((s.ctxs.flatMap fun e => e.2.owned.map fun o => o.1 / 128).filter inP).eraseDups
  let s := lines.foldl (fun (s : State) l => s.revoke (s.homeShroud p (l * 128)) l 0xFFFFFFFF none) s
  let s := (List.range 32).foldl (fun (s : State) k => s.updCore k fun c =>
    { c with siLines := Tab.keep (fun l _ => !inP l) c.siLines, wiLines := Tab.keep (fun l _ => !inP l) c.wiLines }) s
  (List.range 8).foldl (fun (s : State) j => s.updShroud j fun h =>
    let bad (v : Option L2Line) : Bool := v.any fun v => v.bad
    { h with dir := Tab.keep (fun l _ => !inP l) h.dir, used := h.used.filter fun l => !inP l
             l2 := Tab.keep (fun l v => !inP l || bad v) h.l2 }) s

/-- Whether a copy that touches the page is between its 4 KiB boundaries (R383 step 2). -/
def State.copyInside (s : State) (frame : Nat) : Bool :=
  (List.range 32).any fun k => (List.range 16).any fun ch =>
    match s.copyAt k ch with
    | none => false
    | some (t, _, js) => !t.enters js && s.batchTouches k t js fun line => line * 128 / 65536 == frame

/-- A stalled request as it goes on in host-bias mode (R382, R383): it acts as WT, and leaves no copy and no registration. -/
def Req.hostBias (r : Req) : Req :=
  match r.kind with
  | .read | .wiRead => { r with kind := .read, keep := false }
  | .write => { r with wi := false }
  | .own => { r with kind := if r.atomic then .atom else if r.load.isSome then .read else .write, atomic := false }
  | .atom => r

/-- The host's writes that waited for a page to flip are performed, in their order (R382). -/
def State.hostWrites (s : State) (p page : Nat) : State :=
  let due := (s.part p).hostWaits.filter fun w => w.1 / 65536 == page
  let s := s.updPart p fun x => { x with hostWaits := x.hostWaits.filter fun w => w.1 / 65536 != page }
  due.foldl (fun s w => s.homeStore (ctl p) (p * 2 ^ 36 + w.1) w.2) s

/-- The flip of a page takes effect, if one is under way and no copy stands inside a 4 KiB piece (R383); one to device bias needs the
host's side of CXL.cache (R374). -/
def State.flipEffect (s : State) (p page : Nat) : State :=
  let frame := p * 2 ^ 20 + page
  match (s.part p).flips.find? fun f => f.1 == frame with
  | none => s
  | some (_, toHost) =>
    if s.copyInside frame || (!toHost && s.memFailed) then s
    else
      let s := if toHost then s.clearPage frame else s
      let s : State := if toHost then
          { s with reqs := s.reqs.map fun (r : Req) => if r.line * 128 / 65536 = frame then r.hostBias else r } else s
      let s := s.updPart p fun x =>
        { x with flips := x.flips.erase (frame, toHost)
                 hostBias := if toHost then (if x.hostBias.contains frame then x.hostBias else x.hostBias ++ [frame]) else x.hostBias.filter fun f => f != frame }
      let s := if toHost then s.hostWrites p page else s
      if (s.part p).flips.any fun f => f.1 == frame then s.notice (.vf (BitVec.ofNat 3 p)) 5 p 0 page else s.flipEnded p page

/-- BIAS_FLIP_EFFECT (R383, R384). -/
def execBiasFlipEffect (p : BitVec 3) (page : BitVec 23) (s : State) : Host.Outcome State Fault Refusal :=
  .next (s.flipEffect p.toNat page.toNat)

/-- A flip of a page to host bias is under way, after a flip to device bias that runs (R382). -/
def Part.flipToHost (x : Part) (frame : Nat) : Part :=
  match (x.flips.filter fun f => f.1 == frame).getLast? with
  | some f => if f.2 then x else { x with flips := x.flips ++ [(frame, true)] }
  | none => if x.hostBias.contains frame then x else { x with flips := x.flips ++ [(frame, true)] }

/-- HOST_CXL_MEM_ACCESS (R374, R382): an access to a page that is not in host bias, or is leaving it, flips it first and is answered
afterwards; one to a page in host bias goes to its home. A read changes nothing more. -/
def execHostCxlMemAccess (p : BitVec 3) (addr : Nat) (write : Option (List (BitVec 8))) (s : State) :
    Host.Outcome State Fault Refusal :=
  let pn := p.toNat
  let page := addr / 65536
  let frame := pn * 2 ^ 20 + page
  let n := match write with
    | some bs => bs.length
    | none => 0
  if !s.partOpen pn ∨ s.memFailed ∨ s.partSize pn * 2 ^ 20 ≤ page ∨ 65536 < addr % 65536 + n then .next s
  else
    let s := s.updPart pn fun x =>
      { x.flipToHost frame with hostWaits := match write with | some bs => x.hostWaits ++ [(addr, bs)] | none => x.hostWaits }
    .next (if (s.part pn).flips.any fun f => f.1 == frame then s.flipEffect pn page else s.hostWrites pn page)

/-- HOST_SNOOP (R373): no host line is held, so every snoop is a miss and nothing changes. -/
def execHostSnoop (_hpa : BitVec 64) (s : State) : Host.Outcome State Fault Refusal := .next s

/-- SPN.STAT of a partition (R299). -/
def State.spnStat (s : State) (p : Nat) : Word :=
  BitVec.ofNat 64 ((s.part p).dropped * 2 ^ 48 + min 65535 (s.heldCount p) * 2 ^ 32 + s.present p)

/-- SPN_STAT_READ (R299, R375): the register is read; dropped is cleared. -/
def execSpnStatRead (p : BitVec 3) (s : State) : Host.Outcome State Fault Refusal :=
  .next (if s.mboxExists (.vf p) then { s with hostRead := s.spnStat p.toNat }.updPart p.toNat fun x => { x with dropped := 0 } else s)

/-- PKS.STAT (R392). -/
def State.pksStat (s : State) : Word :=
  BitVec.ofNat 64 (s.power.toNat * 2 ^ 48 + s.temp.toNat * 2 ^ 40 + s.throttled.toNat * 2 ^ 31 + s.hot.toNat * 2 ^ 30 + s.boot % 256)

/-- PKS_STAT_READ (R390, R392): the register is read; hot is cleared. It is there once the host link has trained, be it only far enough
for this read. -/
def execPksStatRead (s : State) : Host.Outcome State Fault Refusal :=
  .next (if s.powered && s.boot != 0 && !s.ioFailed then { s with hostRead := s.pksStat, hot := false } else s)

/-- SHROUD.CFG and SHROUD.PWR (R361, R393). -/
def Shroud.cfg (h : Shroud) : Word :=
  BitVec.ofNat 64 (h.partFirst * 2 ^ 13 + h.partLog2 * 2 ^ 11 + h.gateClosed.toNat * 2 ^ 7 +
    (match h.state with | .off => 0 | .ready => 1 | .draining => 2 | .zeroising => 3) * 2 ^ 4)
def Shroud.pwr (h : Shroud) : Word := BitVec.ofNat 64 (h.clk.toNat * 2 ^ 8 + h.watts.toNat)

/-- MBOX.CMD, whose command code reads zero, MBOX.ARG and MBOX.STAT by offset (R377). -/
def Mail.word (m : Mail) (off : Nat) : Word :=
  if off = 0 then BitVec.ofNat 64 (m.tag % 256 * 2 ^ 8)
  else if off = 8 then m.arg
  else BitVec.ofNat 64 (m.answer % 2 ^ 32 * 2 ^ 32 + m.tag % 256 * 2 ^ 16 + m.code % 256 * 2 ^ 8 + m.state % 256)

/-- NOTE.BASE, NOTE.CTL, NOTE.HEAD and NOTE.TAIL by offset (R380). -/
def Notices.word (n : Notices) (off : Nat) : Word :=
  if off = 0 then n.base else if off = 8 then n.ctl else if off = 16 then n.head else n.tail

/-- What the host reads of n bytes in a register BAR (R375): an unlisted offset and a write-only register read zero; an access that is
not 8-byte aligned, or narrower, all ones, and so does what is not there to be read (R390; log entry 55). The reads that change
something are events of their own. -/
def State.registerRead (s : State) (mb : Mbox) (o n : Nat) : Word :=
  if o % 8 ≠ 0 ∨ n < 8 ∨ (mb = .pf ∧ s.boot ≠ 0xFF ∧ o ≠ 0x1000) then allOnes64
  else
    match mb with
    | .pf =>
      let h := s.shroud ((o - 0x100) / 0x40)
      if o = 0 then s.health
      else if o = 8 then s.limit
      else if 0x100 ≤ o ∧ o < 0x300 then
        if o % 0x40 = 0 then h.cfg else if o % 0x40 = 8 then h.gateAudit else if o % 0x40 = 16 then h.pwr else 0
      else if o = 0x1000 then s.pksStat
      else if o = 0x1008 then s.plimit.setWidth 64
      else if o = 0x1010 then s.timebase
      else if 0x2000 ≤ o ∧ o < 0x2018 then s.mail.word (o - 0x2000)
      else if 0x3000 ≤ o ∧ o < 0x3020 then s.notes.word (o - 0x3000)
      else 0
    | .vf p =>
      let x := s.part p.toNat
      if 0x100 ≤ o ∧ o < 0x118 then x.mail.word (o - 0x100)
      else if 0x200 ≤ o ∧ o < 0x220 then x.notes.word (o - 0x200)
      else if o = 0x300 then x.biasReg
      else if o = 0x308 then s.spnStat p.toNat
      else 0

/-- A write of MBOX.CMD starts the command its code names (R377, R378). -/
def State.mboxStart (s : State) (mb : Mbox) (tag cmd : BitVec 8) : Host.Outcome State Fault Refusal :=
  match cmd.toNat with
  | 0x01 => execMboxConfigureStore mb tag s
  | 0x02 => execMboxUnconfigureStore mb tag s
  | 0x03 => execMboxRegisterPodWindow mb tag s
  | 0x04 => execMboxWithdrawPodWindow mb tag s
  | 0x05 => execMboxSetSpnCtl mb tag s
  | 0x06 => execMboxSetFaultRecordArea mb tag s
  | 0x07 => execMboxSetTrapRecords mb tag s
  | 0x08 => execMboxSetPinOrClass mb tag s
  | 0x09 => execMboxDeclareMeasuredImage mb tag s
  | 0x11 => execMboxWriteWindowEntry mb tag s
  | 0x12 => execMboxHeldLaunchPrivilege mb tag s
  | 0x13 => execMboxOfferLendingPool mb tag s
  | 0x14 => execMboxWithdrawLendingPool mb tag s
  | 0x15 => execMboxSetTimeMaster mb tag s
  | 0x20 => execMigrateStart mb tag s
  | 0x21 => execMigrateRound mb tag s
  | 0x22 => execMigratePause mb tag false s
  | 0x23 => execMigrateSave mb tag s
  | 0x24 => execMigrateRestore mb tag s
  | 0x30 => execMboxFirmwareUpdate mb tag s
  | _ => execMboxUnknownCommand mb tag cmd s

/-- The registers of a mailbox and its notice ring by offset from the mailbox's (R375, R377, R380): 0 CMD, 8 ARG, 16 STAT. -/
def State.mailWrite (s : State) (mb : Mbox) (off : Nat) (v : Word) : Host.Outcome State Fault Refusal :=
  if off = 0 then s.mboxStart mb (v.extractLsb' 8 8) (v.extractLsb' 0 8)
  else if off = 8 then .next (s.setMail mb { s.mailOf mb with arg := v })
  else .next s
def State.ringWrite (s : State) (mb : Mbox) (off : Nat) (v : Word) : State :=
  if off = 0 then s.setRing mb { s.ring mb with base := v &&& 0xFFFFFFFFFFFFF000 }
  else if off = 8 then s.setRing mb { s.ring mb with ctl := v &&& 0xFF0F }
  else if off = 16 then s.noteHead mb v
  else s

/-- A write of SHROUD.CFG (R361): the fields while off; cmd opens while off and resets while ready. -/
def State.cfgWrite (s : State) (k : Nat) (v : Nat) : State :=
  let off := (s.shroud k).state == .off
  let ready := (s.shroud k).state == .ready
  let s := if off then s.updShroud k fun h => { h with partFirst := field v 13 3, partLog2 := field v 11 2 } else s
  if !v.testBit 0 then s
  else if off then s.openShroud k
  else if ready then s.beginReset (s.shroud k).partFirst
  else s

/-- REGISTER_WRITE (R375, R376): a write to a register BAR. Other offsets and read-only registers ignore it, a narrow
or unaligned one is dropped; one that touches LAUNCH is then counted. -/
def execRegisterWrite (mb : Mbox) (off : BitVec 16) (write : HostWrite) (s : State) : Host.Outcome State Fault Refusal :=
  let o := off.toNat
  let value := write.data
  let v := value.toNat
  let whole := o % 8 = 0 ∧ 8 ≤ write.bytes.toNat
  if !s.mboxExists mb ∨ write.bytes = 0 then .next s
  else
    match mb with
    | .pf =>
      if ¬ whole then .next s
      else if o = 8 then .next ({ s with limit := value &&& 0x00000FFFFFFFFF00 }).healthCheck
      else if 0x100 ≤ o ∧ o < 0x300 ∧ o % 0x40 = 0 then .next (s.cfgWrite ((o - 0x100) / 0x40) v)
      else if o = 0x1008 then .next { s with plimit := BitVec.ofNat 16 (max 600 (min 2200 (field v 0 16))) }
      else if 0x2000 ≤ o ∧ o < 0x2018 then s.mailWrite .pf (o - 0x2000) value
      else if 0x3000 ≤ o ∧ o < 0x3020 then .next (s.ringWrite .pf (o - 0x3000) value)
      else .next s
    | .vf p =>
      if ¬ whole ∧ o < 8 then .next (s.updPart p.toNat fun x => { x with dropped := min 65535 (x.dropped + 1) })
      else if ¬ whole then .next s
      else if o = 0 then execLaunchWindowStore p value s
      else if 0x100 ≤ o ∧ o < 0x118 then s.mailWrite (.vf p) (o - 0x100) value
      else if 0x200 ≤ o ∧ o < 0x220 then .next (s.ringWrite (.vf p) (o - 0x200) value)
      else if o = 0x300 then .next (s.biasWrite p.toNat (field v 24 23) (field v 0 2))
      else .next s

end Sys2Proof.Machine
end

