-- ==== Sys2Proof/Machine/LinkEvents.lean ====
section
/-! DEFINITION. The torus links, the time master, SPDM sessions, attestation, IDE streams of the host port (R374, R386, R387, R391, R394). -/

namespace Sys2Proof.Machine

def State.setPort (s : State) (i : Nat) (x : Port) : State := { s with ports := Tab.set Port.reset s.ports i x }

/-- ZELLEN_FLIT_RECEIVE (R386): a flit that fails its CRC is refused, and the eighth failure in a row retrains the link; one out
of order waits for its replay; the next in order is delivered. -/
def execZellenFlitReceive (port : BitVec 3) (seq : BitVec 32) (body : BitVec 1984) (crc : BitVec 64) (s : State) :
    Host.Outcome State Fault Refusal :=
  let i := port.toNat
  let x := s.port i
  if 6 ≤ i ∨ !x.up ∨ 8 ≤ x.fails then .next s
  else if crc ≠ Config.crc64 body then .next (s.setPort i { x with fails := x.fails + 1, naks := x.naks + 1 })
  else if seq ≠ x.next then .next (s.setPort i { x with fails := 0 })
  else .next (s.setPort i { x with fails := 0, next := x.next + 1, delivered := x.delivered ++ [body] })

/-- The link at a chip's port. -/
def portLink (chip port : Nat) : Link := linkOf chip (port / 2) (port % 2 == 0)

/-- Operations of this chip in flight across a link fault at their issuers with code WINDOW, their counters unchanged (R387). -/
def State.cutAcross (s : State) (l : Link) : State :=
  let across (t : Thread) : Bool :=
    t.sent && (match Tab.get none (s.part t.p).pod t.cmd.imm with
      | some w => (s.route w.chip).any fun r => r.contains l
      | none => false)
  (s.threads.filter across).foldl (fun (s : State) t => s.threadOut t 4 3 t.progress 0) s

/-- ZELLEN_LINK_DOWN (R386, R387): operations in flight across the link fault. A port of this chip is down, with a notice of kind 4; a
link elsewhere is known as down, so that traffic goes the other way around its ring. -/
def execZellenLinkDown (port : ChipPort) (s : State) : Host.Outcome State Fault Refusal :=
  let i := port.port.toNat
  let l := portLink port.chip.toNat i
  if port.chip = Config.chipId then
    if 6 ≤ i ∨ !(s.port i).up then .next s
    else .next (((s.cutAcross l).setPort i { s.port i with up := false, fails := 0 }).notice .pf 4 i 0 0)
  else if 6 ≤ i ∨ !s.linkUp l ∨ l.1 = Config.chipId.toNat ∨ nextChip l.1 l.2 true = Config.chipId.toNat then .next s
  else .next { s.cutAcross l with links := s.links ++ [l] }

/-- ZELLEN_LINK_UP (R386, R387): the link has trained. -/
def execZellenLinkUp (port : ChipPort) (s : State) : Host.Outcome State Fault Refusal :=
  let i := port.port.toNat
  if 6 ≤ i then .next s
  else if port.chip = Config.chipId then
    let was := (s.port i).up
    let s := s.setPort i { s.port i with up := true, fails := 0 }
    .next (if was then s else s.notice .pf 4 i 0 0)
  else .next { s with links := s.links.filter fun l => l != portLink port.chip.toNat i }

/-- TIME_SYNC_FLIT (R394): another chip's timebase moves toward its master's, never backward; how far one flit moves it, the
manual leaves open (log entry 11). -/
def execTimeSyncFlit (chip : BitVec 12) (value : BitVec 64) (s : State) : Host.Outcome State Fault Refusal :=
  if chip ≠ s.chipMaster ∨ chip = Config.chipId ∨ value.toNat ≤ s.timebase.toNat then .next s
  else
    let step := (Config.freeWord s.freeCtr).toNat % (value.toNat - s.timebase.toNat + 1)
    .next { s.tick with timebase := s.timebase + BitVec.ofNat 64 step }

/-- Whether a function exists: the physical one, or that of an open partition (R372). -/
def State.fnExists (s : State) (fn : Nat) : Bool := fn == 0 || (decide (fn ≤ 8) && s.partOpen (fn - 1))

/-- SPDM_SESSION_OPEN (R374): a session on a function's mailbox, with mutual authentication when asked. -/
def execSpdmSessionOpen (fn : BitVec 4) (mutualAuth : Bool) (s : State) : Host.Outcome State Fault Refusal :=
  if !s.fnExists fn.toNat ∨ s.boot ≠ 0xFF then .next s
  else .next { s with spdm := (s.spdm.filter fun e => e.1 != fn.toNat) ++ [(fn.toNat, mutualAuth)] }

/-- Whether key management is accepted: inside a session of the physical function (R374). -/
def State.keysOk (s : State) (fn : BitVec 4) : Bool := fn == 0 && s.spdm.any fun e => e.1 == 0

/-- A stream's key in the table of streams: the CXL.io sub-streams, then CXL.cache with CXL.mem. -/
def streamKey : IdeStream → Nat
  | .io sub => sub.toNat
  | .cacheMem => 4
def Ide.reset : Ide := { secure := false, failed := false, keys := [], rxSet := none, txSet := none }
def State.ideOf (s : State) (st : IdeStream) : Ide := (Tab.get none s.ide (streamKey st)).getD Ide.reset
def State.setIde (s : State) (st : IdeStream) (x : Ide) : State :=
  { s with ide := Tab.set none s.ide (streamKey st) (if x = Ide.reset then none else some x) }

/-- IDE_KM_QUERY (R374): answered; nothing changes. -/
def execIdeKmQuery (_fn : BitVec 4) (_stream : IdeStream) (s : State) : Host.Outcome State Fault Refusal := .next s

/-- IDE_KM_KEY_PROG (R374): a key of a direction and set; refused on a virtual function's mailbox. -/
def execIdeKmKeyProg (fn : BitVec 4) (stream : IdeStream) (tx : Bool) (keySet : Bool) (key : BitVec 256) (s : State) :
    Host.Outcome State Fault Refusal :=
  if !s.keysOk fn then .next s
  else
    let x := s.ideOf stream
    let rest := x.keys.filter fun k => !(k.1 == tx && k.2.1 == keySet)
    .next (s.setIde stream { x with keys := rest ++ [(tx, keySet, key)] })

/-- IDE_KM_KEY_SET_GO (R374): the direction switches to a programmed set; secure once both directions have gone. -/
def execIdeKmKeySetGo (fn : BitVec 4) (stream : IdeStream) (tx : Bool) (keySet : Bool) (s : State) :
    Host.Outcome State Fault Refusal :=
  let x := s.ideOf stream
  if !s.keysOk fn ∨ !x.keys.any (fun k => k.1 == tx && k.2.1 == keySet) then .next s
  else
    let x : Ide := if tx then { x with txSet := some keySet } else { x with rxSet := some keySet }
    .next (s.setIde stream { x with failed := false, secure := x.txSet.isSome && x.rxSet.isSome })

/-- IDE_KM_KEY_SET_STOP (R374): a running set of a direction stops, and the stream leaves the secure state. -/
def execIdeKmKeySetStop (fn : BitVec 4) (stream : IdeStream) (tx : Bool) (keySet : Bool) (s : State) :
    Host.Outcome State Fault Refusal :=
  let x := s.ideOf stream
  let runs := (if tx then x.txSet else x.rxSet) == some keySet
  if !s.keysOk fn ∨ !runs then .next s
  else
    let x : Ide := if tx then { x with txSet := none } else { x with rxSet := none }
    .next (s.setIde stream { x with secure := false })

/-- The port without its keys: a stream that has failed drops its packets until new ones go (R374). -/
def State.keysGone (s : State) : State :=
  [IdeStream.io 0, .io 1, .io 2, .io 3, .cacheMem].foldl (fun s st => s.setIde st { Ide.reset with failed := (s.ideOf st).failed }) s

/-- SPDM_SESSION_END (R374): the keys that the physical function's session programmed are zeroised. -/
def execSpdmSessionEnd (fn : BitVec 4) (s : State) : Host.Outcome State Fault Refusal :=
  let open_ := s.spdm.any fun e => e.1 == fn.toNat
  let s : State := { s with spdm := s.spdm.filter fun e => e.1 != fn.toNat }
  .next (if open_ && fn == 0 then s.keysGone else s)

/-- LINK_RESET (R374): the keys are zeroised. -/
def execLinkReset (s : State) : Host.Outcome State Fault Refusal := .next s.keysGone

/-- The bytes of an attestation report above its signature (R391), laid out in the table's order (log entry 43). -/
def State.report (s : State) (p : Nat) (nonce : BitVec 256) : List Byte :=
  let slot (i : Nat) : BitVec 512 := if i < 4 then Tab.get 0 s.mslots i else Tab.get 0 (s.part p).slots i
  let win (i : Nat) : List Byte := match Tab.get none (s.part p).windows i with
    | some w => [w.taint, w.written]
    | none => [0, 0]
  [1, BitVec.ofNat 8 p, BitVec.ofNat 8 (s.shroud p).partLog2] ++ natBytes 2 Config.chipId.toNat ++ natBytes 32 nonce.toNat ++
  (List.range 16).flatMap (fun i => natBytes 64 (slot i).toNat) ++ natBytes 8 s.health.toNat ++ (List.range 64).flatMap win

/-- SPDM_ATTESTATION_REQUEST (R391): the partition of the function answers with its report, signed by its attestation key. One
that has been saved for another chip has none until its next open. -/
def execSpdmAttestationRequest (fn : BitVec 4) (nonce : BitVec 256) (s : State) : Host.Outcome State Fault Refusal :=
  let p := fn.toNat - 1
  if fn = 0 ∨ !s.fnExists fn.toNat ∨ (s.part p).migration = 3 then .next s
  else
    let r := s.report p nonce
    .next { s with doe := Tab.set [] s.doe fn.toNat (r ++ Config.attestationSignature p (s.part p).keyGen (digestOf r)) }

/-- A device access to a host page that waits as the stream fails (R374): a load or atomic lands poisoned; whether a store landed
is not said (log entry 11). -/
def State.hostFails (s : State) (r : Req) : State :=
  if r.line * 128 < hostBase then s
  else
    let s := s.dropReq r.id
    match r.load with
    | some l => s.answer l (s.wordBytes r.line r.words) (some r.line)
    | none =>
      let w : Writer := { tag := r.tag, p := s.partOf (r.g / 4) }
      (if r.kind = .write ∧ Config.freeBool s.freeCtr then s.lineWrite w r.line r.data else s).tick

/-- Whether an engine thread's next access is to a host page (R374): a copy's next bytes, or what any other thread reads and writes once
it can run. -/
def State.onHost (s : State) (t : Thread) : Bool :=
  let c := t.cmd
  if c.isCopy then
    match s.copyAt t.core c.chan with
    | some (u, _, js) => u.id == t.id && s.batchTouches t.core t js fun line => decide (hostBase ≤ line * 128)
    | none => false
  else
    !t.sent && s.covered t.core c && (c.op != 6 || s.collFull t (s.collPeers t)) && s.threadOn t fun m => m.mtype == .host

/-- IDE_INTEGRITY_FAILURE (R374): the stream, all sub-streams of CXL.io together, leaves the secure state, its keys are gone, and accesses that wait on the CXL.cache
and CXL.mem stream end as if the host had failed; a notice of kind 8, the last thing that leaves before the drop (log entry 94). -/
def execIdeIntegrityFailure (stream : IdeStream) (s : State) : Host.Outcome State Fault Refusal :=
  if !(s.ideOf stream).secure then .next s
  else
    let all : List IdeStream := match stream with
      | .io _ => (List.range 4).map fun i => .io (BitVec.ofNat _ i)
      | .cacheMem => [.cacheMem]
    let s := all.foldl (fun (s : State) st => s.setIde st { Ide.reset with failed := true }) (s.notice .pf 8 256 0 0)
    .next (if stream = .cacheMem then
        let s := s.reqs.foldl (fun (s : State) r => s.hostFails r) s
        (s.threads.filter s.onHost).foldl (fun (s : State) t =>
          s.stopThread t 4) s
      else s)

end Sys2Proof.Machine
end

