-- ==== Sys2Proof/Machine/LoadStore.lean ====
section
/-! DEFINITION. The load-store instructions: the meaning of each as the one operation of the bundle that core `turn` issues next (R13). -/

namespace Sys2Proof.Machine

/-- LDL (R135). -/
def execLdl (data base : BitVec 6) (imm : BitVec 8) (s : State) : Host.Outcome State Fault Refusal :=
  issueSingle (.ldl data base imm) 4 (ldlOp data base imm) s

/-- STL (R135). -/
def execStl (data base : BitVec 6) (imm : BitVec 8) (s : State) : Host.Outcome State Fault Refusal :=
  issueSingle (.stl data base imm) 4 (stlOp data base imm) s

/-- LDLP (R135). -/
def execLdlp (data base : BitVec 6) (imm : BitVec 8) (s : State) : Host.Outcome State Fault Refusal :=
  issueSingle (.ldlp data base imm) 4 (ldlpOp data base imm) s

/-- STLP (R135). -/
def execStlp (data base : BitVec 6) (imm : BitVec 8) (s : State) : Host.Outcome State Fault Refusal :=
  issueSingle (.stlp data base imm) 4 (stlpOp data base imm) s

/-- LDLS (R135). -/
def execLdls (data base : BitVec 6) (sz : BitVec 2) (off : BitVec 6) (s : State) : Host.Outcome State Fault Refusal :=
  issueSingle (.ldls data base sz off) 4 (ldlsOp data base sz off) s

/-- STLS (R135). -/
def execStls (data base : BitVec 6) (sz : BitVec 2) (off : BitVec 6) (s : State) : Host.Outcome State Fault Refusal :=
  issueSingle (.stls data base sz off) 4 (stlsOp data base sz off) s

/-- LDG (R135). -/
def execLdg (data base : BitVec 6) (cp : Pol) (imm : BitVec 8) (s : State) : Host.Outcome State Fault Refusal :=
  issueSingle (.ldg data base cp imm) 4 (ldgOp data base cp imm) s

/-- STG (R135). -/
def execStg (data base : BitVec 6) (cp : Pol) (imm : BitVec 8) (s : State) : Host.Outcome State Fault Refusal :=
  issueSingle (.stg data base cp imm) 4 (stgOp data base cp imm) s

/-- LDGP (R135). -/
def execLdgp (data base : BitVec 6) (cp : Pol) (imm : BitVec 8) (s : State) : Host.Outcome State Fault Refusal :=
  issueSingle (.ldgp data base cp imm) 4 (ldgpOp data base cp imm) s

/-- STGP (R135). -/
def execStgp (data base : BitVec 6) (cp : Pol) (imm : BitVec 8) (s : State) : Host.Outcome State Fault Refusal :=
  issueSingle (.stgp data base cp imm) 4 (stgpOp data base cp imm) s

/-- LDGS (R135). -/
def execLdgs (data base : BitVec 6) (cp : Pol) (sz : BitVec 2) (off : BitVec 6) (s : State) : Host.Outcome State Fault Refusal :=
  issueSingle (.ldgs data base cp sz off) 4 (ldgsOp data base cp sz off) s

/-- STGS (R135). -/
def execStgs (data base : BitVec 6) (cp : Pol) (sz : BitVec 2) (off : BitVec 6) (s : State) : Host.Outcome State Fault Refusal :=
  issueSingle (.stgs data base cp sz off) 4 (stgsOp data base cp sz off) s

/-- ATOM (R140). -/
def execAtom (f : AtomFn) (w64 : Bool) (cp : Pol) (data base : BitVec 6) (s : State) : Host.Outcome State Fault Refusal :=
  issueSingle (.atom f w64 cp data base) 4 (atomOp f w64 cp data base) s

/-- ATOML (R141). -/
def execAtoml (f : AtomFn) (w64 : Bool) (data base : BitVec 6) (s : State) : Host.Outcome State Fault Refusal :=
  issueSingle (.atoml f w64 data base) 4 (atomlOp f w64 data base) s

/-- FENCE_ACQ (R142). -/
def execFenceAcq (scope : BitVec 3) (s : State) : Host.Outcome State Fault Refusal :=
  issueSingle (.fenceAcq scope) 4 (fenceAcqOp scope) s

/-- FENCE_REL (R142). -/
def execFenceRel (scope : BitVec 3) (s : State) : Host.Outcome State Fault Refusal :=
  issueSingle (.fenceRel scope) 4 (fenceRelOp scope) s

/-- FENCE_ACQREL (R142). -/
def execFenceAcqrel (scope : BitVec 3) (s : State) : Host.Outcome State Fault Refusal :=
  issueSingle (.fenceAcqrel scope) 4 (fenceAcqrelOp scope) s

/-- CLAIMB (R145). -/
def execClaimb (mask : BitVec 6) (s : State) : Host.Outcome State Fault Refusal :=
  issueSingle (.claimb mask) 4 (claimbOp mask) s

/-- RELB (R145). -/
def execRelb (mask : BitVec 6) (s : State) : Host.Outcome State Fault Refusal :=
  issueSingle (.relb mask) 4 (relbOp mask) s

/-- CLAIMT (R145). -/
def execClaimt (mask : BitVec 6) (s : State) : Host.Outcome State Fault Refusal :=
  issueSingle (.claimt mask) 4 (claimtOp mask) s

/-- RELT (R145). -/
def execRelt (mask : BitVec 6) (s : State) : Host.Outcome State Fault Refusal :=
  issueSingle (.relt mask) 4 (reltOp mask) s

/-- PRFG (R144). -/
def execPrfg (len base : BitVec 6) (cp : Pol) (imm : BitVec 8) (s : State) : Host.Outcome State Fault Refusal :=
  issueSingle (.prfg len base cp imm) 4 (prfgOp len base cp imm) s

/-- PUBL (R144). -/
def execPubl (len base : BitVec 6) (imm : BitVec 8) (s : State) : Host.Outcome State Fault Refusal :=
  issueSingle (.publ len base imm) 4 (publOp len base imm) s

/-- INVL (R144). -/
def execInvl (len base : BitVec 6) (imm : BitVec 8) (s : State) : Host.Outcome State Fault Refusal :=
  issueSingle (.invl len base imm) 4 (invlOp len base imm) s

/-- LDLX (R147). -/
def execLdlx (data base : BitVec 6) (imm : BitVec 8) (s : State) : Host.Outcome State Fault Refusal :=
  issueSingle (.ldlx data base imm) 4 (ldlxOp data base imm) s

end Sys2Proof.Machine
end

