-- ==== Sys2Proof/Machine/PowerEvents.lean ====
section
/-! DEFINITION. Bring-up, package reset, power, clocks and heat (R390 to R396). -/

namespace Sys2Proof.Machine

/-- The firmware image the ROM reads: the flash's, the factory's until an update is written (R390, R397). -/
def State.flashImage (s : State) : List Byte := if s.fwFlash = [] then Config.factoryImage else s.fwFlash

/-- Whether the ROM accepts an image (R390). -/
def imageOk (img : List Byte) : Bool := Config.imageSignatureGood img && decide (Config.fusedMinimum.toNat ≤ (Config.imageVersion img).toNat)

/-- Slots 0–3 as a boot leaves them: ROM, firmware, its configuration, the fused security version (R391). -/
def bootSlots (img : List Byte) : Tab (BitVec 512) :=
  let put (t : Tab (BitVec 512)) (i : Nat) (d : BitVec 512) : Tab (BitVec 512) := Tab.set 0 t i (extend 0 d)
  put (put (put (put [] 0 (Config.romDigest 0)) 1 (digestOf img)) 2 (Config.romDigest 1)) 3 (Config.romDigest 2)

/-- Cores as the self-test leaves them (R395 step 4), and a replacement asked for where they are too few (R360): reefed or out, and the
maps of rows and columns that it found to need spares; more of them than there are takes the core out (R237, R238). -/
def State.selfTest (s : State) (bad reefed : BitVec 32) (maps : List (BitVec 5 × List (BitVec 9) × List (BitVec 9) × BitVec 9)) : State :=
  let s := (List.range 32).foldl (fun (s : State) k => s.updCore k fun c =>
    { c with health := if bad.getLsbD k then .out else if reefed.getLsbD k then .reefed else .whole }) s
  State.healthCheck (maps.foldl (fun (s : State) m =>
    let rows := m.2.1.map (·.toNat)
    let cols := m.2.2.1.map (·.toNat)
    let ck := m.2.2.2.toNat
    s.updCore m.1.toNat fun c => if mapsOk rows cols ck then { c with rowMap := mapTab rows, colMap := mapTab cols, ckCol := ck }
      else { c with health := .out }) s)

/-- The Zellen and pool links as they train (R395 step 6), each with a notice; a pool port has no number of its own in one. -/
def State.trainLinks (s : State) (ports : BitVec 6) (poolPorts : BitVec 2) : State :=
  let s := (List.range 6).foldl (fun (s : State) i => (s.setPort i { Port.reset with up := ports.getLsbD i }).notice .pf 4 i 0 0) s
  let dec (i : Nat) : Option PoolDec := (Config.poolDecoder i).map fun d => ⟨d.1, d.2.1, d.2.2⟩
  let s : State := { s with poolUp := poolPorts, pools := (List.range 32).foldl (fun t i => Tab.set none t i (dec i)) [] }
  (s.notice .pf 4 256 0 0).notice .pf 4 256 0 0

/-- POWER_ON (R390, R395): the steps of bring-up from power-on or package reset, each of which may stop it: the reason then stands in
boot. Boot 4 means that no core is left in service. -/
def execPowerOn (hbmOk : Bool) (badCores reefCores : BitVec 32) (ports : BringUp) (s : State) : Host.Outcome State Fault Refusal :=
  if s.powered ∧ s.boot ≠ 0 then .next s
  else
    let s : State := { s with powered := true }
    let img := s.flashImage
    if !imageOk img then .next { s with boot := 2 }
    else
      let s : State := { s with fwVersion := Config.imageVersion img, mslots := bootSlots img }
      if !hbmOk then .next { s with boot := 3 }
      else
        let s := s.selfTest badCores reefCores ports.maps
        if s.outCount = 32 then .next { s with boot := 4 }
        else .next { s.trainLinks ports.ports ports.poolPorts with boot := 0xFF }

/-- What neither a package reset nor the loss of power reaches: memory outside the package, the flash, retired frames, what
other chips hold, the keys' generations, and the model's own fields. -/
def State.restart (s : State) : State :=
  { State.reset with
    links := s.links, timebase := s.timebase, mem := Tab.keep (fun a _ => !decide (a < hbmTop)) s.mem, remote := s.remote, retired := s.retired
    parts := s.parts.foldl (fun (t : Tab Part) e => Tab.set Part.reset t e.1 { Part.reset with keyGen := e.2.keyGen }) []
    images := s.images, fwFlash := s.fwFlash, agenda := s.agenda, turn := s.turn, phase := s.phase, freeCtr := s.freeCtr
    nextReq := s.nextReq, nextThread := s.nextThread }

/-- PACKAGE_RESET (R396): everything is zeroised, HEALTH cleared, and bring-up starts again at step 1. -/
def execPackageReset (s : State) : Host.Outcome State Fault Refusal :=
  .next (if s.powered then s.restart else s)

/-- POWER_OFF (R395): the rails fall. -/
def execPowerOff (s : State) : Host.Outcome State Fault Refusal := .next { s.restart with powered := false }

/-- What each shroud draws as it is measured (R393). -/
def State.setWatts (s : State) (loads : List (BitVec 8)) : State :=
  (loads.take 8).zipIdx.foldl (fun (s : State) e => s.updShroud e.2 fun h => { h with watts := e.1 }) s

/-- A clock lowered, in steps of 50 MHz down to 900 MHz, and raised, up to 1.8 GHz (R393). -/
def lowerClock (old new : Nat) : Nat := max 18 (min old new)
def raiseClock (old new : Nat) : Nat := min 36 (max old new)

/-- The clocks of shrouds lowered to those asked for, the most loaded first (R393): once one is not lowered and could be, the less
loaded keep theirs. -/
def State.lowerClocks (s : State) (clocks : List (BitVec 8)) : List Nat → State
  | [] => s
  | k :: r =>
    let old := (s.shroud k).clk.toNat
    let new := lowerClock old ((clocks.getD k 36).toNat)
    if new < old ∨ old ≤ 18 then (s.updShroud k fun h => { h with clk := BitVec.ofNat 8 new }).lowerClocks clocks r else s
/-- The shrouds by load, the most loaded first (R393). -/
def State.byLoad (s : State) : List Nat := sortBy (fun a b => decide ((s.shroud b).watts.toNat ≤ (s.shroud a).watts.toNat)) (List.range 8)
def State.raiseClocks (s : State) (clocks : List (BitVec 8)) : State :=
  (clocks.take 8).zipIdx.foldl (fun (s : State) e => s.updShroud e.2 fun h => { h with clk := BitVec.ofNat 8 (raiseClock h.clk.toNat e.1.toNat) }) s

/-- Whether a clock is held below nominal (R392). -/
def State.slowed (s : State) : Bool := (List.range 8).any fun k => decide ((s.shroud k).clk.toNat < 36)

/-- Throttling is entered, or goes on: a notice of kind 3 at each entry (R393). -/
def State.throttle (s : State) (clocks : List (BitVec 8)) : State :=
  let s1 := s.lowerClocks clocks s.byLoad
  let s2 : State := { s1 with throttled := s1.slowed }
  if s2.throttled && !s.throttled then s2.notice .pf 3 256 0 0 else s2

/-- POWER_LIMIT_EXCEEDED (R392, R393): power has stayed above the limit for 1 ms. -/
def execPowerLimitExceeded (watts : BitVec 16) (clocks : ClockPlan) (s : State) : Host.Outcome State Fault Refusal :=
  let s : State := { s.setWatts clocks.loads with power := watts }
  .next (if watts.toNat ≤ s.plimit.toNat then s else s.throttle clocks.clocks)

/-- The temperature as it is read: hot is set from 110 °C on (R392). -/
def State.heat (s : State) (temp : BitVec 8) : State := { s with temp := temp, hot := s.hot || decide (110 ≤ temp.toNat) }

/-- THERMAL_THROTTLE (R393): from 105 °C on the controller lowers clocks. -/
def execThermalThrottle (temp : BitVec 8) (clocks : ClockPlan) (s : State) : Host.Outcome State Fault Refusal :=
  let s := s.setWatts clocks.loads
  .next (if temp.toNat < 105 then s.heat temp else (s.heat temp).throttle clocks.clocks)

/-- THERMAL_STOP (R393): at 120 °C every shroud is held in reset; a notice of kind 3. -/
def execThermalStop (temp : BitVec 8) (s : State) : Host.Outcome State Fault Refusal :=
  let s := s.heat temp
  if temp.toNat < 120 then .next s
  else
    let s := (List.range 8).foldl (fun (s : State) k => if s.partOpen k then s.beginReset k else s) { s with stoppedByHeat := true }
    .next (s.notice .pf 3 256 0 0)

/-- THROTTLING_END (R393): with power and heat below their limits the clocks rise again. -/
def execThrottlingEnd (temp : BitVec 8) (watts : BitVec 16) (clocks : ClockPlan) (s : State) :
    Host.Outcome State Fault Refusal :=
  let s := { (s.setWatts clocks.loads).heat temp with power := watts }
  if 105 ≤ temp.toNat ∨ s.plimit.toNat < watts.toNat then .next s
  else
    let s := s.raiseClocks clocks.clocks
    .next { s with throttled := s.slowed }

end Sys2Proof.Machine
end

