-- ==== Sys2Proof/Machine/Scalar.lean ====
section
/-! DEFINITION. The scalar instructions: the meaning of each as the one operation of the bundle that core `turn` issues next (R13). -/

namespace Sys2Proof.Machine

/-- ADD (R92). -/
def execAdd (d a b : BitVec 6) (s : State) : Host.Outcome State Fault Refusal :=
  issueSingle (.add d a b) 1 (addOp d a b) s

/-- SUB (R92). -/
def execSub (d a b : BitVec 6) (s : State) : Host.Outcome State Fault Refusal :=
  issueSingle (.sub d a b) 1 (subOp d a b) s

/-- MUL (R92). -/
def execMul (d a b : BitVec 6) (s : State) : Host.Outcome State Fault Refusal :=
  issueSingle (.mul d a b) 1 (mulOp d a b) s

/-- MULH (R92). -/
def execMulh (d a b : BitVec 6) (s : State) : Host.Outcome State Fault Refusal :=
  issueSingle (.mulh d a b) 1 (mulhOp d a b) s

/-- MULHN (R92). -/
def execMulhn (d a b : BitVec 6) (s : State) : Host.Outcome State Fault Refusal :=
  issueSingle (.mulhn d a b) 1 (mulhnOp d a b) s

/-- DIV (R47). -/
def execDiv (d a b : BitVec 6) (s : State) : Host.Outcome State Fault Refusal :=
  issueSingle (.div d a b) 1 (divOp d a b) s

/-- DIVN (R47). -/
def execDivn (d a b : BitVec 6) (s : State) : Host.Outcome State Fault Refusal :=
  issueSingle (.divn d a b) 1 (divnOp d a b) s

/-- REM (R47). -/
def execRem (d a b : BitVec 6) (s : State) : Host.Outcome State Fault Refusal :=
  issueSingle (.rem d a b) 1 (remOp d a b) s

/-- REMN (R47). -/
def execRemn (d a b : BitVec 6) (s : State) : Host.Outcome State Fault Refusal :=
  issueSingle (.remn d a b) 1 (remnOp d a b) s

/-- AND (R92). -/
def execAnd (d a b : BitVec 6) (s : State) : Host.Outcome State Fault Refusal :=
  issueSingle (.and d a b) 1 (andOp d a b) s

/-- OR (R92). -/
def execOr (d a b : BitVec 6) (s : State) : Host.Outcome State Fault Refusal :=
  issueSingle (.or d a b) 1 (orOp d a b) s

/-- XOR (R92). -/
def execXor (d a b : BitVec 6) (s : State) : Host.Outcome State Fault Refusal :=
  issueSingle (.xor d a b) 1 (xorOp d a b) s

/-- ANDN (R92). -/
def execAndn (d a b : BitVec 6) (s : State) : Host.Outcome State Fault Refusal :=
  issueSingle (.andn d a b) 1 (andnOp d a b) s

/-- SHL (R92). -/
def execShl (d a b : BitVec 6) (s : State) : Host.Outcome State Fault Refusal :=
  issueSingle (.shl d a b) 1 (shlOp d a b) s

/-- SHR (R92). -/
def execShr (d a b : BitVec 6) (s : State) : Host.Outcome State Fault Refusal :=
  issueSingle (.shr d a b) 1 (shrOp d a b) s

/-- SRA (R92). -/
def execSra (d a b : BitVec 6) (s : State) : Host.Outcome State Fault Refusal :=
  issueSingle (.sra d a b) 1 (sraOp d a b) s

/-- MIN (R92). -/
def execMin (d a b : BitVec 6) (s : State) : Host.Outcome State Fault Refusal :=
  issueSingle (.min d a b) 1 (minOp d a b) s

/-- MAX (R92). -/
def execMax (d a b : BitVec 6) (s : State) : Host.Outcome State Fault Refusal :=
  issueSingle (.max d a b) 1 (maxOp d a b) s

/-- MINN (R92). -/
def execMinn (d a b : BitVec 6) (s : State) : Host.Outcome State Fault Refusal :=
  issueSingle (.minn d a b) 1 (minnOp d a b) s

/-- MAXN (R92). -/
def execMaxn (d a b : BitVec 6) (s : State) : Host.Outcome State Fault Refusal :=
  issueSingle (.maxn d a b) 1 (maxnOp d a b) s

/-- CLZ (R92). -/
def execClz (d a : BitVec 6) (s : State) : Host.Outcome State Fault Refusal :=
  issueSingle (.clz d a) 1 (clzOp d a) s

/-- POPC (R92). -/
def execPopc (d a : BitVec 6) (s : State) : Host.Outcome State Fault Refusal :=
  issueSingle (.popc d a) 1 (popcOp d a) s

/-- SEL (R93). -/
def execSel (d a b : BitVec 6) (k : BitVec 4) (s : State) : Host.Outcome State Fault Refusal :=
  issueSingle (.sel d a b k) 1 (selOp d a b k) s

/-- ADDI (R93). -/
def execAddi (d a : BitVec 6) (imm : BitVec 10) (s : State) : Host.Outcome State Fault Refusal :=
  issueSingle (.addi d a imm) 1 (addiOp d a imm) s

/-- ANDI (R93). -/
def execAndi (d a : BitVec 6) (imm : BitVec 10) (s : State) : Host.Outcome State Fault Refusal :=
  issueSingle (.andi d a imm) 1 (andiOp d a imm) s

/-- ORI (R93). -/
def execOri (d a : BitVec 6) (imm : BitVec 10) (s : State) : Host.Outcome State Fault Refusal :=
  issueSingle (.ori d a imm) 1 (oriOp d a imm) s

/-- XORI (R93). -/
def execXori (d a : BitVec 6) (imm : BitVec 10) (s : State) : Host.Outcome State Fault Refusal :=
  issueSingle (.xori d a imm) 1 (xoriOp d a imm) s

/-- SHLI (R93). -/
def execShli (d a n : BitVec 6) (s : State) : Host.Outcome State Fault Refusal :=
  issueSingle (.shli d a n) 1 (shliOp d a n) s

/-- SHRI (R93). -/
def execShri (d a n : BitVec 6) (s : State) : Host.Outcome State Fault Refusal :=
  issueSingle (.shri d a n) 1 (shriOp d a n) s

/-- SRAI (R93). -/
def execSrai (d a n : BitVec 6) (s : State) : Host.Outcome State Fault Refusal :=
  issueSingle (.srai d a n) 1 (sraiOp d a n) s

/-- LI (R94). -/
def execLi (d : BitVec 6) (imm : BitVec 16) (s : State) : Host.Outcome State Fault Refusal :=
  issueSingle (.li d imm) 1 (liOp d imm) s

/-- LIS (R94). -/
def execLis (d : BitVec 6) (imm : BitVec 16) (s : State) : Host.Outcome State Fault Refusal :=
  issueSingle (.lis d imm) 1 (lisOp d imm) s

/-- ADDS (R93). -/
def execAdds (d a b : BitVec 6) (k : BitVec 4) (s : State) : Host.Outcome State Fault Refusal :=
  issueSingle (.adds d a b k) 1 (addsOp d a b k) s

/-- CMP (R95). -/
def execCmp (pair : BitVec 3) (cond : Cond) (a b : BitVec 6) (s : State) : Host.Outcome State Fault Refusal :=
  issueSingle (.cmp pair cond a b) 1 (cmpOp pair cond a b) s

/-- CMPI (R95). -/
def execCmpi (pair : BitVec 3) (cond : Cond) (a : BitVec 6) (imm : BitVec 9) (s : State) : Host.Outcome State Fault Refusal :=
  issueSingle (.cmpi pair cond a imm) 1 (cmpiOp pair cond a imm) s

/-- PAND (R96). -/
def execPand (pair : BitVec 3) (pa pb : BitVec 4) (s : State) : Host.Outcome State Fault Refusal :=
  issueSingle (.pand pair pa pb) 1 (pandOp pair pa pb) s

/-- POR (R96). -/
def execPor (pair : BitVec 3) (pa pb : BitVec 4) (s : State) : Host.Outcome State Fault Refusal :=
  issueSingle (.por pair pa pb) 1 (porOp pair pa pb) s

/-- PXOR (R96). -/
def execPxor (pair : BitVec 3) (pa pb : BitVec 4) (s : State) : Host.Outcome State Fault Refusal :=
  issueSingle (.pxor pair pa pb) 1 (pxorOp pair pa pb) s

/-- SETX (R98). -/
def execSetx (x : BitVec 2) (a : BitVec 6) (imm : BitVec 8) (s : State) : Host.Outcome State Fault Refusal :=
  issueSingle (.setx x a imm) 1 (setxOp x a imm) s

/-- MOVBT (R99). -/
def execMovbt (bt : BitVec 3) (a : BitVec 6) (s : State) : Host.Outcome State Fault Refusal :=
  issueSingle (.movbt bt a) 1 (movbtOp bt a) s

/-- MFBT (R99). -/
def execMfbt (d : BitVec 6) (bt : BitVec 3) (s : State) : Host.Outcome State Fault Refusal :=
  issueSingle (.mfbt d bt) 1 (mfbtOp d bt) s

/-- MFC (R72). -/
def execMfc (d : BitVec 6) (cr : BitVec 12) (s : State) : Host.Outcome State Fault Refusal :=
  issueSingle (.mfc d cr) 1 (mfcOp d cr) s

/-- MTC (R72). -/
def execMtc (cr : BitVec 12) (a : BitVec 6) (s : State) : Host.Outcome State Fault Refusal :=
  issueSingle (.mtc cr a) 1 (mtcOp cr a) s

/-- FADD (R100). -/
def execFadd (d a b : BitVec 6) (s : State) : Host.Outcome State Fault Refusal :=
  issueSingle (.fadd d a b) 1 (faddOp d a b) s

/-- FSUB (R100). -/
def execFsub (d a b : BitVec 6) (s : State) : Host.Outcome State Fault Refusal :=
  issueSingle (.fsub d a b) 1 (fsubOp d a b) s

/-- FMUL (R100). -/
def execFmul (d a b : BitVec 6) (s : State) : Host.Outcome State Fault Refusal :=
  issueSingle (.fmul d a b) 1 (fmulOp d a b) s

/-- FFMA (R100). -/
def execFfma (d a b : BitVec 6) (s : State) : Host.Outcome State Fault Refusal :=
  issueSingle (.ffma d a b) 1 (ffmaOp d a b) s

/-- FMIN (R100). -/
def execFmin (d a b : BitVec 6) (s : State) : Host.Outcome State Fault Refusal :=
  issueSingle (.fmin d a b) 1 (fminOp d a b) s

/-- FMAX (R100). -/
def execFmax (d a b : BitVec 6) (s : State) : Host.Outcome State Fault Refusal :=
  issueSingle (.fmax d a b) 1 (fmaxOp d a b) s

/-- FCMP (R95). -/
def execFcmp (pair : BitVec 3) (cond : Cond) (a b : BitVec 6) (s : State) : Host.Outcome State Fault Refusal :=
  issueSingle (.fcmp pair cond a b) 1 (fcmpOp pair cond a b) s

/-- FCVTI (R101). -/
def execFcvti (n64 : Bool) (d a : BitVec 6) (s : State) : Host.Outcome State Fault Refusal :=
  issueSingle (.fcvti n64 d a) 1 (fcvtiOp n64 d a) s

/-- ICVTF (R101). -/
def execIcvtf (n64 : Bool) (d a : BitVec 6) (s : State) : Host.Outcome State Fault Refusal :=
  issueSingle (.icvtf n64 d a) 1 (icvtfOp n64 d a) s

end Sys2Proof.Machine
end

