-- ==== Sys2Proof/Machine/Transform.lean ====
section
/-! DEFINITION. The transform instructions: the meaning of each as the one operation of the bundle that core `turn` issues next (R13). -/

namespace Sys2Proof.Machine

/-- XCVT (R151). -/
def execXcvt (tgt from_ : XFmt) (stat inf : Bool) (d a : BitVec 6) (s : State) : Host.Outcome State Fault Refusal :=
  issueSingle (.xcvt tgt from_ stat inf d a) 6 (xcvtOp tgt from_ stat inf d a) s

/-- XQNT (R153). -/
def execXqnt (tgt : XFmt) (bf : Bool) (sc : BitVec 3) (stat : Bool) (d a : BitVec 6) (s : State) : Host.Outcome State Fault Refusal :=
  issueSingle (.xqnt tgt bf sc stat d a) 6 (xqntOp tgt bf sc stat d a) s

/-- XDEQ (R154). -/
def execXdeq (from_ : XFmt) (bf : Bool) (sc : BitVec 3) (d a : BitVec 6) (s : State) : Host.Outcome State Fault Refusal :=
  issueSingle (.xdeq from_ bf sc d a) 6 (xdeqOp from_ bf sc d a) s

/-- XTRN (R156). -/
def execXtrn (w : BitVec 2) (d a : BitVec 6) (s : State) : Host.Outcome State Fault Refusal :=
  issueSingle (.xtrn w d a) 6 (xtrnOp w d a) s

/-- XEXP (R148). -/
def execXexp (ceil : BitVec 2) (d a : BitVec 6) (s : State) : Host.Outcome State Fault Refusal :=
  issueSingle (.xexp ceil d a) 6 (xexpOp ceil d a) s

/-- XCMP (R148). -/
def execXcmp (ceil : BitVec 2) (d a : BitVec 6) (s : State) : Host.Outcome State Fault Refusal :=
  issueSingle (.xcmp ceil d a) 6 (xcmpOp ceil d a) s

/-- XSCL (R152). -/
def execXscl (sc : BitVec 3) (a : BitVec 6) (s : State) : Host.Outcome State Fault Refusal :=
  issueSingle (.xscl sc a) 6 (xsclOp sc a) s

/-- XSTAT (R155). -/
def execXstat (clr : Bool) (d : BitVec 6) (s : State) : Host.Outcome State Fault Refusal :=
  issueSingle (.xstat clr d) 6 (xstatOp clr d) s

/-- XPACK (R157). -/
def execXpack (f : XFmt) (d a : BitVec 6) (s : State) : Host.Outcome State Fault Refusal :=
  issueSingle (.xpack f d a) 6 (xpackOp f d a) s

/-- XUNPK (R157). -/
def execXunpk (f : XFmt) (d a : BitVec 6) (s : State) : Host.Outcome State Fault Refusal :=
  issueSingle (.xunpk f d a) 6 (xunpkOp f d a) s

end Sys2Proof.Machine
end

