-- ==== Sys2Proof/Machine/Vector.lean ====
section
/-! DEFINITION. The vector instructions: the meaning of each as the one operation of the bundle that core `turn` issues next (R13). -/

namespace Sys2Proof.Machine

/-- VADD (R111). -/
def execVadd (vs : VSlot) (fmt : VFmt) (nwb : Bool) (d : BitVec 6) (a b : BitVec 6) (s : State) : Host.Outcome State Fault Refusal :=
  issueSingle (.vadd vs fmt nwb d a b) vs.slot (vaddOp fmt nwb d a b) s

/-- VSUB (R111). -/
def execVsub (vs : VSlot) (fmt : VFmt) (nwb : Bool) (d : BitVec 6) (a b : BitVec 6) (s : State) : Host.Outcome State Fault Refusal :=
  issueSingle (.vsub vs fmt nwb d a b) vs.slot (vsubOp fmt nwb d a b) s

/-- VMUL (R111). -/
def execVmul (vs : VSlot) (fmt : VFmt) (nwb : Bool) (d : BitVec 6) (a b : BitVec 6) (s : State) : Host.Outcome State Fault Refusal :=
  issueSingle (.vmul vs fmt nwb d a b) vs.slot (vmulOp fmt nwb d a b) s

/-- VFMA (R111). -/
def execVfma (vs : VSlot) (fmt : VFmt) (nwb : Bool) (d : BitVec 6) (a b : BitVec 6) (s : State) : Host.Outcome State Fault Refusal :=
  issueSingle (.vfma vs fmt nwb d a b) vs.slot (vfmaOp fmt nwb d a b) s

/-- VFMS (R111). -/
def execVfms (vs : VSlot) (fmt : VFmt) (nwb : Bool) (d : BitVec 6) (a b : BitVec 6) (s : State) : Host.Outcome State Fault Refusal :=
  issueSingle (.vfms vs fmt nwb d a b) vs.slot (vfmsOp fmt nwb d a b) s

/-- VMIN (R111). -/
def execVmin (vs : VSlot) (fmt : VFmt) (nwb : Bool) (d : BitVec 6) (a b : BitVec 6) (s : State) : Host.Outcome State Fault Refusal :=
  issueSingle (.vmin vs fmt nwb d a b) vs.slot (vminOp fmt nwb d a b) s

/-- VMAX (R111). -/
def execVmax (vs : VSlot) (fmt : VFmt) (nwb : Bool) (d : BitVec 6) (a b : BitVec 6) (s : State) : Host.Outcome State Fault Refusal :=
  issueSingle (.vmax vs fmt nwb d a b) vs.slot (vmaxOp fmt nwb d a b) s

/-- VABS (R111). -/
def execVabs (vs : VSlot) (fmt : VFmt) (nwb : Bool) (d : BitVec 6) (a : BitVec 6) (s : State) : Host.Outcome State Fault Refusal :=
  issueSingle (.vabs vs fmt nwb d a) vs.slot (vabsOp fmt nwb d a) s

/-- VNEG (R111). -/
def execVneg (vs : VSlot) (fmt : VFmt) (nwb : Bool) (d : BitVec 6) (a : BitVec 6) (s : State) : Host.Outcome State Fault Refusal :=
  issueSingle (.vneg vs fmt nwb d a) vs.slot (vnegOp fmt nwb d a) s

/-- VABD (R111). -/
def execVabd (vs : VSlot) (fmt : VFmt) (nwb : Bool) (d : BitVec 6) (a b : BitVec 6) (s : State) : Host.Outcome State Fault Refusal :=
  issueSingle (.vabd vs fmt nwb d a b) vs.slot (vabdOp fmt nwb d a b) s

/-- VAND (R114). -/
def execVand (vs : VSlot) (fmt : VFmt) (nwb : Bool) (d : BitVec 6) (a b : BitVec 6) (s : State) : Host.Outcome State Fault Refusal :=
  issueSingle (.vand vs fmt nwb d a b) vs.slot (vandOp nwb d a b) s

/-- VOR (R114). -/
def execVor (vs : VSlot) (fmt : VFmt) (nwb : Bool) (d : BitVec 6) (a b : BitVec 6) (s : State) : Host.Outcome State Fault Refusal :=
  issueSingle (.vor vs fmt nwb d a b) vs.slot (vorOp nwb d a b) s

/-- VXOR (R114). -/
def execVxor (vs : VSlot) (fmt : VFmt) (nwb : Bool) (d : BitVec 6) (a b : BitVec 6) (s : State) : Host.Outcome State Fault Refusal :=
  issueSingle (.vxor vs fmt nwb d a b) vs.slot (vxorOp nwb d a b) s

/-- VSHL (R114). -/
def execVshl (vs : VSlot) (fmt : VFmt) (nwb : Bool) (d : BitVec 6) (a b : BitVec 6) (s : State) : Host.Outcome State Fault Refusal :=
  issueSingle (.vshl vs fmt nwb d a b) vs.slot (vshlOp fmt nwb d a b) s

/-- VSHR (R114). -/
def execVshr (vs : VSlot) (fmt : VFmt) (nwb : Bool) (d : BitVec 6) (a b : BitVec 6) (s : State) : Host.Outcome State Fault Refusal :=
  issueSingle (.vshr vs fmt nwb d a b) vs.slot (vshrOp fmt nwb d a b) s

/-- VSRA (R114). -/
def execVsra (vs : VSlot) (fmt : VFmt) (nwb : Bool) (d : BitVec 6) (a b : BitVec 6) (s : State) : Host.Outcome State Fault Refusal :=
  issueSingle (.vsra vs fmt nwb d a b) vs.slot (vsraOp fmt nwb d a b) s

/-- VADDS (R113). -/
def execVadds (vs : VSlot) (fmt : VFmt) (nwb : Bool) (d : BitVec 6) (a b : BitVec 6) (s : State) : Host.Outcome State Fault Refusal :=
  issueSingle (.vadds vs fmt nwb d a b) vs.slot (vaddsOp fmt nwb d a b) s

/-- VSUBS (R113). -/
def execVsubs (vs : VSlot) (fmt : VFmt) (nwb : Bool) (d : BitVec 6) (a b : BitVec 6) (s : State) : Host.Outcome State Fault Refusal :=
  issueSingle (.vsubs vs fmt nwb d a b) vs.slot (vsubsOp fmt nwb d a b) s

/-- VCMPEQ (R115). -/
def execVcmpeq (vs : VSlot) (fmt : VFmt) (nwb : Bool) (d : BitVec 6) (a b : BitVec 6) (s : State) : Host.Outcome State Fault Refusal :=
  issueSingle (.vcmpeq vs fmt nwb d a b) vs.slot (vcmpeqOp fmt nwb d a b) s

/-- VCMPLT (R115). -/
def execVcmplt (vs : VSlot) (fmt : VFmt) (nwb : Bool) (d : BitVec 6) (a b : BitVec 6) (s : State) : Host.Outcome State Fault Refusal :=
  issueSingle (.vcmplt vs fmt nwb d a b) vs.slot (vcmpltOp fmt nwb d a b) s

/-- VCMPLE (R115). -/
def execVcmple (vs : VSlot) (fmt : VFmt) (nwb : Bool) (d : BitVec 6) (a b : BitVec 6) (s : State) : Host.Outcome State Fault Refusal :=
  issueSingle (.vcmple vs fmt nwb d a b) vs.slot (vcmpleOp fmt nwb d a b) s

/-- VSEL (R116). -/
def execVsel (vs : VSlot) (fmt : VFmt) (nwb : Bool) (d : BitVec 6) (a b : BitVec 6) (s : State) : Host.Outcome State Fault Refusal :=
  issueSingle (.vsel vs fmt nwb d a b) vs.slot (vselOp nwb d a b) s

/-- VEXP2 (R118). -/
def execVexp2 (vs : VSlot) (fmt : VFmt) (nwb : Bool) (d : BitVec 6) (a : BitVec 6) (s : State) : Host.Outcome State Fault Refusal :=
  issueSingle (.vexp2 vs fmt nwb d a) vs.slot (vexp2Op fmt nwb d a) s

/-- VLOG2 (R118). -/
def execVlog2 (vs : VSlot) (fmt : VFmt) (nwb : Bool) (d : BitVec 6) (a : BitVec 6) (s : State) : Host.Outcome State Fault Refusal :=
  issueSingle (.vlog2 vs fmt nwb d a) vs.slot (vlog2Op fmt nwb d a) s

/-- VRCP (R118). -/
def execVrcp (vs : VSlot) (fmt : VFmt) (nwb : Bool) (d : BitVec 6) (a : BitVec 6) (s : State) : Host.Outcome State Fault Refusal :=
  issueSingle (.vrcp vs fmt nwb d a) vs.slot (vrcpOp fmt nwb d a) s

/-- VRSQ (R118). -/
def execVrsq (vs : VSlot) (fmt : VFmt) (nwb : Bool) (d : BitVec 6) (a : BitVec 6) (s : State) : Host.Outcome State Fault Refusal :=
  issueSingle (.vrsq vs fmt nwb d a) vs.slot (vrsqOp fmt nwb d a) s

/-- VCVT (R119). -/
def execVcvt (vs : VSlot) (fmt : VFmt) (nwb : Bool) (d : BitVec 6) (a : BitVec 6) (from_ : VFmt) (inf : Bool) (s : State) : Host.Outcome State Fault Refusal :=
  issueSingle (.vcvt vs fmt nwb d a from_ inf) vs.slot (vcvtOp fmt nwb d a from_ inf) s

/-- VBCAST (R120). -/
def execVbcast (vs : VSlot) (fmt : VFmt) (nwb : Bool) (d : BitVec 6) (a : BitVec 6) (lane : BitVec 6) (s : State) : Host.Outcome State Fault Refusal :=
  issueSingle (.vbcast vs fmt nwb d a lane) vs.slot (vbcastOp fmt nwb d a lane) s

/-- VBCS (R120). -/
def execVbcs (vs : VSlot) (fmt : VFmt) (nwb : Bool) (d : BitVec 6) (sa : BitVec 6) (s : State) : Host.Outcome State Fault Refusal :=
  issueSingle (.vbcs vs fmt nwb d sa) vs.slot (vbcsOp fmt nwb d sa) s

/-- VPERM (R121). -/
def execVperm (vs : VSlot) (fmt : VFmt) (nwb : Bool) (d : BitVec 6) (a b : BitVec 6) (s : State) : Host.Outcome State Fault Refusal :=
  issueSingle (.vperm vs fmt nwb d a b) vs.slot (vpermOp fmt nwb d a b) s

/-- VREDADD (R124). -/
def execVredadd (vs : VSlot) (fmt : VFmt) (nwb : Bool) (d : BitVec 6) (a : BitVec 6) (s : State) : Host.Outcome State Fault Refusal :=
  issueSingle (.vredadd vs fmt nwb d a) vs.slot (vredaddOp fmt nwb d a) s

/-- VREDMAX (R124). -/
def execVredmax (vs : VSlot) (fmt : VFmt) (nwb : Bool) (d : BitVec 6) (a : BitVec 6) (s : State) : Host.Outcome State Fault Refusal :=
  issueSingle (.vredmax vs fmt nwb d a) vs.slot (vredmaxOp fmt nwb d a) s

/-- VREDMIN (R124). -/
def execVredmin (vs : VSlot) (fmt : VFmt) (nwb : Bool) (d : BitVec 6) (a : BitVec 6) (s : State) : Host.Outcome State Fault Refusal :=
  issueSingle (.vredmin vs fmt nwb d a) vs.slot (vredminOp fmt nwb d a) s

/-- VSCAN (R125). -/
def execVscan (vs : VSlot) (fmt : VFmt) (nwb : Bool) (d : BitVec 6) (a : BitVec 6) (s : State) : Host.Outcome State Fault Refusal :=
  issueSingle (.vscan vs fmt nwb d a) vs.slot (vscanOp fmt nwb d a) s

/-- VDOT4 (R126). -/
def execVdot4 (vs : VSlot) (fmt : VFmt) (nwb : Bool) (d : BitVec 6) (a b : BitVec 6) (s : State) : Host.Outcome State Fault Refusal :=
  issueSingle (.vdot4 vs fmt nwb d a b) vs.slot (vdot4Op fmt nwb d a b) s

/-- VMOV (R120). -/
def execVmov (vs : VSlot) (fmt : VFmt) (nwb : Bool) (d : BitVec 6) (a : BitVec 6) (s : State) : Host.Outcome State Fault Refusal :=
  issueSingle (.vmov vs fmt nwb d a) vs.slot (vmovOp nwb d a) s

/-- VIOTA (R120). -/
def execViota (vs : VSlot) (fmt : VFmt) (nwb : Bool) (d : BitVec 6) (sa : BitVec 6) (s : State) : Host.Outcome State Fault Refusal :=
  issueSingle (.viota vs fmt nwb d sa) vs.slot (viotaOp fmt nwb d sa) s

/-- VMSKP (R117). -/
def execVmskp (vs : VSlot) (fmt : VFmt) (pair : BitVec 3) (a : BitVec 6) (s : State) : Host.Outcome State Fault Refusal :=
  issueSingle (.vmskp vs fmt pair a) vs.slot (vmskpOp fmt pair a) s

/-- VMSKC (R117). -/
def execVmskc (vs : VSlot) (fmt : VFmt) (sd a : BitVec 6) (s : State) : Host.Outcome State Fault Refusal :=
  issueSingle (.vmskc vs fmt sd a) vs.slot (vmskcOp fmt sd a) s

/-- VSHUF (R122). -/
def execVshuf (vs : VSlot) (fmt : VFmt) (nwb : Bool) (d : BitVec 6) (a : BitVec 6) (pat : BitVec 6) (s : State) : Host.Outcome State Fault Refusal :=
  issueSingle (.vshuf vs fmt nwb d a pat) vs.slot (vshufOp fmt nwb d a pat) s

/-- VMOVS (R123). -/
def execVmovs (vs : VSlot) (fmt : VFmt) (sd a lane : BitVec 6) (s : State) : Host.Outcome State Fault Refusal :=
  issueSingle (.vmovs vs fmt sd a lane) vs.slot (vmovsOp fmt sd a lane) s

/-- VINS (R123). -/
def execVins (vs : VSlot) (fmt : VFmt) (nwb : Bool) (d : BitVec 6) (sa lane : BitVec 6) (s : State) : Host.Outcome State Fault Refusal :=
  issueSingle (.vins vs fmt nwb d sa lane) vs.slot (vinsOp fmt nwb d sa lane) s

end Sys2Proof.Machine
end

