-- ==== Sys2Proof/Machine/Dispatch.lean ====
section
/-! DEFINITION. The dispatch: one arm per constructor of Instr, each a call of its meaning. -/

namespace Sys2Proof.Machine

def exec (i : Instr) (s : State) : Host.Outcome State Fault Refusal :=
  match i with
  | .bra off => Sys2Proof.Machine.execBra off s
  | .brc p off => Sys2Proof.Machine.execBrc p off s
  | .brm t0 t1 t2 t3 bt => Sys2Proof.Machine.execBrm t0 t1 t2 t3 bt s
  | .brr bt => Sys2Proof.Machine.execBrr bt s
  | .call off => Sys2Proof.Machine.execCall off s
  | .callr bt => Sys2Proof.Machine.execCallr bt s
  | .ret => Sys2Proof.Machine.execRet s
  | .loop cnt len => Sys2Proof.Machine.execLoop cnt len s
  | .waitCtrGe scope sa sb => Sys2Proof.Machine.execWaitCtrGe scope sa sb s
  | .waitWpGe scope sa sb => Sys2Proof.Machine.execWaitWpGe scope sa sb s
  | .waitCoDone scope sa => Sys2Proof.Machine.execWaitCoDone scope sa s
  | .waitBanks sa => Sys2Proof.Machine.execWaitBanks sa s
  | .waitTiles sa => Sys2Proof.Machine.execWaitTiles sa s
  | .waitQne sa => Sys2Proof.Machine.execWaitQne sa s
  | .waitTime sa => Sys2Proof.Machine.execWaitTime sa s
  | .yield => Sys2Proof.Machine.execYield s
  | .done => Sys2Proof.Machine.execDone s
  | .trap code => Sys2Proof.Machine.execTrap code s
  | .eret => Sys2Proof.Machine.execEret s
  | .segb idx => Sys2Proof.Machine.execSegb idx s
  | .sege => Sys2Proof.Machine.execSege s
  | .rdv id => Sys2Proof.Machine.execRdv id s
  | .bkpt code => Sys2Proof.Machine.execBkpt code s
  | .phase scope => Sys2Proof.Machine.execPhase scope s
  | .add d a b => Sys2Proof.Machine.execAdd d a b s
  | .sub d a b => Sys2Proof.Machine.execSub d a b s
  | .mul d a b => Sys2Proof.Machine.execMul d a b s
  | .mulh d a b => Sys2Proof.Machine.execMulh d a b s
  | .mulhn d a b => Sys2Proof.Machine.execMulhn d a b s
  | .div d a b => Sys2Proof.Machine.execDiv d a b s
  | .divn d a b => Sys2Proof.Machine.execDivn d a b s
  | .rem d a b => Sys2Proof.Machine.execRem d a b s
  | .remn d a b => Sys2Proof.Machine.execRemn d a b s
  | .and d a b => Sys2Proof.Machine.execAnd d a b s
  | .or d a b => Sys2Proof.Machine.execOr d a b s
  | .xor d a b => Sys2Proof.Machine.execXor d a b s
  | .andn d a b => Sys2Proof.Machine.execAndn d a b s
  | .shl d a b => Sys2Proof.Machine.execShl d a b s
  | .shr d a b => Sys2Proof.Machine.execShr d a b s
  | .sra d a b => Sys2Proof.Machine.execSra d a b s
  | .min d a b => Sys2Proof.Machine.execMin d a b s
  | .max d a b => Sys2Proof.Machine.execMax d a b s
  | .minn d a b => Sys2Proof.Machine.execMinn d a b s
  | .maxn d a b => Sys2Proof.Machine.execMaxn d a b s
  | .clz d a => Sys2Proof.Machine.execClz d a s
  | .popc d a => Sys2Proof.Machine.execPopc d a s
  | .sel d a b k => Sys2Proof.Machine.execSel d a b k s
  | .addi d a imm => Sys2Proof.Machine.execAddi d a imm s
  | .andi d a imm => Sys2Proof.Machine.execAndi d a imm s
  | .ori d a imm => Sys2Proof.Machine.execOri d a imm s
  | .xori d a imm => Sys2Proof.Machine.execXori d a imm s
  | .shli d a n => Sys2Proof.Machine.execShli d a n s
  | .shri d a n => Sys2Proof.Machine.execShri d a n s
  | .srai d a n => Sys2Proof.Machine.execSrai d a n s
  | .li d imm => Sys2Proof.Machine.execLi d imm s
  | .lis d imm => Sys2Proof.Machine.execLis d imm s
  | .adds d a b k => Sys2Proof.Machine.execAdds d a b k s
  | .cmp pair cond a b => Sys2Proof.Machine.execCmp pair cond a b s
  | .cmpi pair cond a imm => Sys2Proof.Machine.execCmpi pair cond a imm s
  | .pand pair pa pb => Sys2Proof.Machine.execPand pair pa pb s
  | .por pair pa pb => Sys2Proof.Machine.execPor pair pa pb s
  | .pxor pair pa pb => Sys2Proof.Machine.execPxor pair pa pb s
  | .setx x a imm => Sys2Proof.Machine.execSetx x a imm s
  | .movbt bt a => Sys2Proof.Machine.execMovbt bt a s
  | .mfbt d bt => Sys2Proof.Machine.execMfbt d bt s
  | .mfc d cr => Sys2Proof.Machine.execMfc d cr s
  | .mtc cr a => Sys2Proof.Machine.execMtc cr a s
  | .fadd d a b => Sys2Proof.Machine.execFadd d a b s
  | .fsub d a b => Sys2Proof.Machine.execFsub d a b s
  | .fmul d a b => Sys2Proof.Machine.execFmul d a b s
  | .ffma d a b => Sys2Proof.Machine.execFfma d a b s
  | .fmin d a b => Sys2Proof.Machine.execFmin d a b s
  | .fmax d a b => Sys2Proof.Machine.execFmax d a b s
  | .fcmp pair cond a b => Sys2Proof.Machine.execFcmp pair cond a b s
  | .fcvti n64 d a => Sys2Proof.Machine.execFcvti n64 d a s
  | .icvtf n64 d a => Sys2Proof.Machine.execIcvtf n64 d a s
  | .vadd vs fmt nwb d a b => Sys2Proof.Machine.execVadd vs fmt nwb d a b s
  | .vsub vs fmt nwb d a b => Sys2Proof.Machine.execVsub vs fmt nwb d a b s
  | .vmul vs fmt nwb d a b => Sys2Proof.Machine.execVmul vs fmt nwb d a b s
  | .vfma vs fmt nwb d a b => Sys2Proof.Machine.execVfma vs fmt nwb d a b s
  | .vfms vs fmt nwb d a b => Sys2Proof.Machine.execVfms vs fmt nwb d a b s
  | .vmin vs fmt nwb d a b => Sys2Proof.Machine.execVmin vs fmt nwb d a b s
  | .vmax vs fmt nwb d a b => Sys2Proof.Machine.execVmax vs fmt nwb d a b s
  | .vabs vs fmt nwb d a => Sys2Proof.Machine.execVabs vs fmt nwb d a s
  | .vneg vs fmt nwb d a => Sys2Proof.Machine.execVneg vs fmt nwb d a s
  | .vabd vs fmt nwb d a b => Sys2Proof.Machine.execVabd vs fmt nwb d a b s
  | .vand vs fmt nwb d a b => Sys2Proof.Machine.execVand vs fmt nwb d a b s
  | .vor vs fmt nwb d a b => Sys2Proof.Machine.execVor vs fmt nwb d a b s
  | .vxor vs fmt nwb d a b => Sys2Proof.Machine.execVxor vs fmt nwb d a b s
  | .vshl vs fmt nwb d a b => Sys2Proof.Machine.execVshl vs fmt nwb d a b s
  | .vshr vs fmt nwb d a b => Sys2Proof.Machine.execVshr vs fmt nwb d a b s
  | .vsra vs fmt nwb d a b => Sys2Proof.Machine.execVsra vs fmt nwb d a b s
  | .vadds vs fmt nwb d a b => Sys2Proof.Machine.execVadds vs fmt nwb d a b s
  | .vsubs vs fmt nwb d a b => Sys2Proof.Machine.execVsubs vs fmt nwb d a b s
  | .vcmpeq vs fmt nwb d a b => Sys2Proof.Machine.execVcmpeq vs fmt nwb d a b s
  | .vcmplt vs fmt nwb d a b => Sys2Proof.Machine.execVcmplt vs fmt nwb d a b s
  | .vcmple vs fmt nwb d a b => Sys2Proof.Machine.execVcmple vs fmt nwb d a b s
  | .vsel vs fmt nwb d a b => Sys2Proof.Machine.execVsel vs fmt nwb d a b s
  | .vexp2 vs fmt nwb d a => Sys2Proof.Machine.execVexp2 vs fmt nwb d a s
  | .vlog2 vs fmt nwb d a => Sys2Proof.Machine.execVlog2 vs fmt nwb d a s
  | .vrcp vs fmt nwb d a => Sys2Proof.Machine.execVrcp vs fmt nwb d a s
  | .vrsq vs fmt nwb d a => Sys2Proof.Machine.execVrsq vs fmt nwb d a s
  | .vcvt vs fmt nwb d a from_ inf => Sys2Proof.Machine.execVcvt vs fmt nwb d a from_ inf s
  | .vbcast vs fmt nwb d a lane => Sys2Proof.Machine.execVbcast vs fmt nwb d a lane s
  | .vbcs vs fmt nwb d sa => Sys2Proof.Machine.execVbcs vs fmt nwb d sa s
  | .vperm vs fmt nwb d a b => Sys2Proof.Machine.execVperm vs fmt nwb d a b s
  | .vredadd vs fmt nwb d a => Sys2Proof.Machine.execVredadd vs fmt nwb d a s
  | .vredmax vs fmt nwb d a => Sys2Proof.Machine.execVredmax vs fmt nwb d a s
  | .vredmin vs fmt nwb d a => Sys2Proof.Machine.execVredmin vs fmt nwb d a s
  | .vscan vs fmt nwb d a => Sys2Proof.Machine.execVscan vs fmt nwb d a s
  | .vdot4 vs fmt nwb d a b => Sys2Proof.Machine.execVdot4 vs fmt nwb d a b s
  | .vmov vs fmt nwb d a => Sys2Proof.Machine.execVmov vs fmt nwb d a s
  | .viota vs fmt nwb d sa => Sys2Proof.Machine.execViota vs fmt nwb d sa s
  | .vmskp vs fmt pair a => Sys2Proof.Machine.execVmskp vs fmt pair a s
  | .vmskc vs fmt sd a => Sys2Proof.Machine.execVmskc vs fmt sd a s
  | .vshuf vs fmt nwb d a pat => Sys2Proof.Machine.execVshuf vs fmt nwb d a pat s
  | .vmovs vs fmt sd a lane => Sys2Proof.Machine.execVmovs vs fmt sd a lane s
  | .vins vs fmt nwb d sa lane => Sys2Proof.Machine.execVins vs fmt nwb d sa lane s
  | .ldl data base imm => Sys2Proof.Machine.execLdl data base imm s
  | .stl data base imm => Sys2Proof.Machine.execStl data base imm s
  | .ldlp data base imm => Sys2Proof.Machine.execLdlp data base imm s
  | .stlp data base imm => Sys2Proof.Machine.execStlp data base imm s
  | .ldls data base sz off => Sys2Proof.Machine.execLdls data base sz off s
  | .stls data base sz off => Sys2Proof.Machine.execStls data base sz off s
  | .ldg data base cp imm => Sys2Proof.Machine.execLdg data base cp imm s
  | .stg data base cp imm => Sys2Proof.Machine.execStg data base cp imm s
  | .ldgp data base cp imm => Sys2Proof.Machine.execLdgp data base cp imm s
  | .stgp data base cp imm => Sys2Proof.Machine.execStgp data base cp imm s
  | .ldgs data base cp sz off => Sys2Proof.Machine.execLdgs data base cp sz off s
  | .stgs data base cp sz off => Sys2Proof.Machine.execStgs data base cp sz off s
  | .atom f w64 cp data base => Sys2Proof.Machine.execAtom f w64 cp data base s
  | .atoml f w64 data base => Sys2Proof.Machine.execAtoml f w64 data base s
  | .fenceAcq scope => Sys2Proof.Machine.execFenceAcq scope s
  | .fenceRel scope => Sys2Proof.Machine.execFenceRel scope s
  | .fenceAcqrel scope => Sys2Proof.Machine.execFenceAcqrel scope s
  | .claimb mask => Sys2Proof.Machine.execClaimb mask s
  | .relb mask => Sys2Proof.Machine.execRelb mask s
  | .claimt mask => Sys2Proof.Machine.execClaimt mask s
  | .relt mask => Sys2Proof.Machine.execRelt mask s
  | .prfg len base cp imm => Sys2Proof.Machine.execPrfg len base cp imm s
  | .publ len base imm => Sys2Proof.Machine.execPubl len base imm s
  | .invl len base imm => Sys2Proof.Machine.execInvl len base imm s
  | .ldlx data base imm => Sys2Proof.Machine.execLdlx data base imm s
  | .xcvt tgt from_ stat inf d a => Sys2Proof.Machine.execXcvt tgt from_ stat inf d a s
  | .xqnt tgt bf sc stat d a => Sys2Proof.Machine.execXqnt tgt bf sc stat d a s
  | .xdeq from_ bf sc d a => Sys2Proof.Machine.execXdeq from_ bf sc d a s
  | .xtrn w d a => Sys2Proof.Machine.execXtrn w d a s
  | .xexp ceil d a => Sys2Proof.Machine.execXexp ceil d a s
  | .xcmp ceil d a => Sys2Proof.Machine.execXcmp ceil d a s
  | .xscl sc a => Sys2Proof.Machine.execXscl sc a s
  | .xstat clr d => Sys2Proof.Machine.execXstat clr d s
  | .xpack f d a => Sys2Proof.Machine.execXpack f d a s
  | .xunpk f d a => Sys2Proof.Machine.execXunpk f d a s
  | .tdesc td sa => Sys2Proof.Machine.execTdesc td sa s
  | .mma tile ta tb op cnt z ck => Sys2Proof.Machine.execMma tile ta tb op cnt z ck s
  | .mmap tile ta tb cnt z ck => Sys2Proof.Machine.execMmap tile ta tb cnt z ck s
  | .cpat sa => Sys2Proof.Machine.execCpat sa s
  | .mzero tile cnt => Sys2Proof.Machine.execMzero tile cnt s
  | .mdrain tile fmt sa cnt codec stat chk => Sys2Proof.Machine.execMdrain tile fmt sa cnt codec stat chk s
  | .mboomRmax tile sa cnt => Sys2Proof.Machine.execMboomRmax tile sa cnt s
  | .mboomRsum tile sa cnt => Sys2Proof.Machine.execMboomRsum tile sa cnt s
  | .mboomRscale tile sa cnt => Sys2Proof.Machine.execMboomRscale tile sa cnt s
  | .mboomCscale tile sa cnt => Sys2Proof.Machine.execMboomCscale tile sa cnt s
  | .mboomSexp tile sa cnt => Sys2Proof.Machine.execMboomSexp tile sa cnt s
  | .mboomNorm tile cnt => Sys2Proof.Machine.execMboomNorm tile cnt s
  | .mboomCzero tile cnt => Sys2Proof.Machine.execMboomCzero tile cnt s
  | .mboomRstat tile sa cnt => Sys2Proof.Machine.execMboomRstat tile sa cnt s
  | .attn tile tq sh sr => Sys2Proof.Machine.execAttn tile tq sh sr s
  | .acarryExp tile l j row => Sys2Proof.Machine.execAcarryExp tile l j row s
  | .acarryImp tile l j row => Sys2Proof.Machine.execAcarryImp tile l j row s
  | .mstat sa item => Sys2Proof.Machine.execMstat sa item s
  | .copy sa ch => Sys2Proof.Machine.execCopy sa ch s
  | .gath sa ch => Sys2Proof.Machine.execGath sa ch s
  | .scat sa ch => Sys2Proof.Machine.execScat sa ch s
  | .put sa win => Sys2Proof.Machine.execPut sa win s
  | .get sa win => Sys2Proof.Machine.execGet sa win s
  | .coll sa => Sys2Proof.Machine.execColl sa s
  | .signal sa sb scope => Sys2Proof.Machine.execSignal sa sb scope s
  | .bar scope id => Sys2Proof.Machine.execBar scope id s
  | .launch sa => Sys2Proof.Machine.execLaunch sa s
  | .take sa sb max => Sys2Proof.Machine.execTake sa sb max s
  | .trig => Sys2Proof.Machine.execTrig s
  | .hist sa sb => Sys2Proof.Machine.execHist sa sb s
  | .hlatch sa => Sys2Proof.Machine.execHlatch sa s
  | .topk sa => Sys2Proof.Machine.execTopk sa s
  | .topkr sa => Sys2Proof.Machine.execTopkr sa s
  | .kvapp sa sb => Sys2Proof.Machine.execKvapp sa sb s
  | .kvsync scope => Sys2Proof.Machine.execKvsync scope s
  | .kvfork sa sb => Sys2Proof.Machine.execKvfork sa sb s
  | .kvfree sa => Sys2Proof.Machine.execKvfree sa s
  | .kvtrim sa sb => Sys2Proof.Machine.execKvtrim sa sb s
  | .kvcmpt sa => Sys2Proof.Machine.execKvcmpt sa s
  | .kvpf sa sb => Sys2Proof.Machine.execKvpf sa sb s
  | .kvdem sa sb mx => Sys2Proof.Machine.execKvdem sa sb mx s
  | .kvlend sa => Sys2Proof.Machine.execKvlend sa s
  | .kvrsv sa pair => Sys2Proof.Machine.execKvrsv sa pair s
  | .kvqry sa sb item => Sys2Proof.Machine.execKvqry sa sb item s
  | .time sa => Sys2Proof.Machine.execTime sa s
  | .perf sa ctr => Sys2Proof.Machine.execPerf sa ctr s
  | .syscVersion sa => Sys2Proof.Machine.execSyscVersion sa s
  | .syscHealth sa => Sys2Proof.Machine.execSyscHealth sa s
  | .syscBarrierSetup sa => Sys2Proof.Machine.execSyscBarrierSetup sa s
  | .syscBarrierCancel sa => Sys2Proof.Machine.execSyscBarrierCancel sa s
  | .syscReleaseHeld sa => Sys2Proof.Machine.execSyscReleaseHeld sa s
  | .syscCancelHeld sa => Sys2Proof.Machine.execSyscCancelHeld sa s
  | .winreg sa sb => Sys2Proof.Machine.execWinreg sa sb s
  | .qsend sa sb => Sys2Proof.Machine.execQsend sa sb s
  | .syscUnknownService sa svc => Sys2Proof.Machine.execSyscUnknownService sa svc s
  | .bundle core => Sys2Proof.Machine.execBundle core s
  | .resultLands g => Sys2Proof.Machine.execResultLands g s
  | .globalLoadLands load => Sys2Proof.Machine.execGlobalLoadLands load s
  | .contextSwitch core => Sys2Proof.Machine.execContextSwitch core s
  | .halyardEntryStart core boom => Sys2Proof.Machine.execHalyardEntryStart core boom s
  | .mmaGroupEnd core => Sys2Proof.Machine.execMmaGroupEnd core s
  | .attnPageEnd core => Sys2Proof.Machine.execAttnPageEnd core s
  | .halyardEntryEnd core boom => Sys2Proof.Machine.execHalyardEntryEnd core boom s
  | .kvFaultService core => Sys2Proof.Machine.execKvFaultService core s
  | .qsendDeferredDeliver thread => Sys2Proof.Machine.execQsendDeferredDeliver thread s
  | .engineAccept core => Sys2Proof.Machine.execEngineAccept core s
  | .copyGranuleLands core ch => Sys2Proof.Machine.execCopyGranuleLands core ch s
  | .engineThreadComplete thread => Sys2Proof.Machine.execEngineThreadComplete thread s
  | .kvlendRun thread => Sys2Proof.Machine.execKvlendRun thread s
  | .filerFileEntry core => Sys2Proof.Machine.execFilerFileEntry core s
  | .spindleDecide sub => Sys2Proof.Machine.execSpindleDecide sub s
  | .dependenceDecided launch => Sys2Proof.Machine.execDependenceDecided launch s
  | .dispatchGang launch => Sys2Proof.Machine.execDispatchGang launch s
  | .homeRead req evict => Sys2Proof.Machine.execHomeRead req evict s
  | .homeWiRead req evict => Sys2Proof.Machine.execHomeWiRead req evict s
  | .homeWriteAccept req evict => Sys2Proof.Machine.execHomeWriteAccept req evict s
  | .homeOwnRequest req evict => Sys2Proof.Machine.execHomeOwnRequest req evict s
  | .homeSurrender g line => Sys2Proof.Machine.execHomeSurrender g line s
  | .forwardedRead req => Sys2Proof.Machine.execForwardedRead req s
  | .walkerAnswer core => Sys2Proof.Machine.execWalkerAnswer core s
  | .timebaseTick => Sys2Proof.Machine.execTimebaseTick s
  | .passedOverTimeout launch => Sys2Proof.Machine.execPassedOverTimeout launch s
  | .putAckReturn thread => Sys2Proof.Machine.execPutAckReturn thread s
  | .shroudDrainEnd k => Sys2Proof.Machine.execShroudDrainEnd k s
  | .shroudZeroiseEnd k => Sys2Proof.Machine.execShroudZeroiseEnd k s
  | .moveCommit p store ref => Sys2Proof.Machine.execMoveCommit p store ref s
  | .ladderRun p store => Sys2Proof.Machine.execLadderRun p store s
  | .controllerPromote p store ref => Sys2Proof.Machine.execControllerPromote p store ref s
  | .preemptionCall launch => Sys2Proof.Machine.execPreemptionCall launch s
  | .biasFlipEffect p page => Sys2Proof.Machine.execBiasFlipEffect p page s
  | .migratePause mb tag goOn => Sys2Proof.Machine.execMigratePause mb tag goOn s
  | .putLandedAtOwner p win chip off data => Sys2Proof.Machine.execPutLandedAtOwner p win chip off data s
  | .frameTake p win chip => Sys2Proof.Machine.execFrameTake p win chip s
  | .frameReturn p win frame => Sys2Proof.Machine.execFrameReturn p win frame s
  | .scrubberRun p store => Sys2Proof.Machine.execScrubberRun p store s
  | .registrantRevocation g line => Sys2Proof.Machine.execRegistrantRevocation g line s
  | .coreInvalidation core line => Sys2Proof.Machine.execCoreInvalidation core line s
  | .summaryBucketClear k bucket => Sys2Proof.Machine.execSummaryBucketClear k bucket s
  | .l2UeDetect line set way => Sys2Proof.Machine.execL2UeDetect line set way s
  | .translationChange p vpage map => Sys2Proof.Machine.execTranslationChange p vpage map s
  | .mapChange core rows cols ckcol => Sys2Proof.Machine.execMapChange core rows cols ckcol s
  | .coreReef core out => Sys2Proof.Machine.execCoreReef core out s
  | .debugResume g => Sys2Proof.Machine.execDebugResume g s
  | .launchWindowStore p value => Sys2Proof.Machine.execLaunchWindowStore p value s
  | .shroudOpen k => Sys2Proof.Machine.execShroudOpen k s
  | .shroudReset k => Sys2Proof.Machine.execShroudReset k s
  | .mboxConfigureStore mb tag => Sys2Proof.Machine.execMboxConfigureStore mb tag s
  | .mboxUnconfigureStore mb tag => Sys2Proof.Machine.execMboxUnconfigureStore mb tag s
  | .mboxRegisterPodWindow mb tag => Sys2Proof.Machine.execMboxRegisterPodWindow mb tag s
  | .mboxWithdrawPodWindow mb tag => Sys2Proof.Machine.execMboxWithdrawPodWindow mb tag s
  | .mboxSetSpnCtl mb tag => Sys2Proof.Machine.execMboxSetSpnCtl mb tag s
  | .mboxSetFaultRecordArea mb tag => Sys2Proof.Machine.execMboxSetFaultRecordArea mb tag s
  | .mboxSetTrapRecords mb tag => Sys2Proof.Machine.execMboxSetTrapRecords mb tag s
  | .mboxSetPinOrClass mb tag => Sys2Proof.Machine.execMboxSetPinOrClass mb tag s
  | .mboxDeclareMeasuredImage mb tag => Sys2Proof.Machine.execMboxDeclareMeasuredImage mb tag s
  | .mboxWriteWindowEntry mb tag => Sys2Proof.Machine.execMboxWriteWindowEntry mb tag s
  | .mboxHeldLaunchPrivilege mb tag => Sys2Proof.Machine.execMboxHeldLaunchPrivilege mb tag s
  | .mboxOfferLendingPool mb tag => Sys2Proof.Machine.execMboxOfferLendingPool mb tag s
  | .mboxWithdrawLendingPool mb tag => Sys2Proof.Machine.execMboxWithdrawLendingPool mb tag s
  | .mboxSetTimeMaster mb tag => Sys2Proof.Machine.execMboxSetTimeMaster mb tag s
  | .migrateStart mb tag => Sys2Proof.Machine.execMigrateStart mb tag s
  | .migrateRound mb tag => Sys2Proof.Machine.execMigrateRound mb tag s
  | .migrateSave mb tag => Sys2Proof.Machine.execMigrateSave mb tag s
  | .migrateRestore mb tag => Sys2Proof.Machine.execMigrateRestore mb tag s
  | .mboxFirmwareUpdate mb tag => Sys2Proof.Machine.execMboxFirmwareUpdate mb tag s
  | .noteHeadWrite mb value => Sys2Proof.Machine.execNoteHeadWrite mb value s
  | .biasToHost p page => Sys2Proof.Machine.execBiasToHost p page s
  | .biasToDevice p page => Sys2Proof.Machine.execBiasToDevice p page s
  | .hostCxlMemAccess p addr write => Sys2Proof.Machine.execHostCxlMemAccess p addr write s
  | .hostSnoop hpa => Sys2Proof.Machine.execHostSnoop hpa s
  | .poolBackInvalidate line => Sys2Proof.Machine.execPoolBackInvalidate line s
  | .poolDeviceTimeout engine req => Sys2Proof.Machine.execPoolDeviceTimeout engine req s
  | .gateAuditRead k => Sys2Proof.Machine.execGateAuditRead k s
  | .spnStatRead p => Sys2Proof.Machine.execSpnStatRead p s
  | .pksStatRead => Sys2Proof.Machine.execPksStatRead s
  | .registerWrite mb off value => Sys2Proof.Machine.execRegisterWrite mb off value s
  | .zellenFlitReceive port seq body crc => Sys2Proof.Machine.execZellenFlitReceive port seq body crc s
  | .zellenLinkDown port => Sys2Proof.Machine.execZellenLinkDown port s
  | .zellenLinkUp port => Sys2Proof.Machine.execZellenLinkUp port s
  | .timeSyncFlit chip value => Sys2Proof.Machine.execTimeSyncFlit chip value s
  | .spdmSessionOpen fn mutualAuth => Sys2Proof.Machine.execSpdmSessionOpen fn mutualAuth s
  | .ideKmQuery fn stream => Sys2Proof.Machine.execIdeKmQuery fn stream s
  | .ideKmKeyProg fn stream tx keySet key => Sys2Proof.Machine.execIdeKmKeyProg fn stream tx keySet key s
  | .ideKmKeySetGo fn stream tx keySet => Sys2Proof.Machine.execIdeKmKeySetGo fn stream tx keySet s
  | .ideKmKeySetStop fn stream tx keySet => Sys2Proof.Machine.execIdeKmKeySetStop fn stream tx keySet s
  | .spdmSessionEnd fn => Sys2Proof.Machine.execSpdmSessionEnd fn s
  | .spdmAttestationRequest fn nonce => Sys2Proof.Machine.execSpdmAttestationRequest fn nonce s
  | .ideIntegrityFailure stream => Sys2Proof.Machine.execIdeIntegrityFailure stream s
  | .linkReset => Sys2Proof.Machine.execLinkReset s
  | .powerOn hbmOk badCores reefCores ports => Sys2Proof.Machine.execPowerOn hbmOk badCores reefCores ports s
  | .packageReset => Sys2Proof.Machine.execPackageReset s
  | .vfFunctionLevelReset p => Sys2Proof.Machine.execVfFunctionLevelReset p s
  | .powerLimitExceeded watts clocks => Sys2Proof.Machine.execPowerLimitExceeded watts clocks s
  | .thermalThrottle temp clocks => Sys2Proof.Machine.execThermalThrottle temp clocks s
  | .thermalStop temp => Sys2Proof.Machine.execThermalStop temp s
  | .wiCopyDrop core line => Sys2Proof.Machine.execWiCopyDrop core line s
  | .debuggerAttach g attach step => Sys2Proof.Machine.execDebuggerAttach g attach step s
  | .launchKill launch => Sys2Proof.Machine.execLaunchKill launch s
  | .engineReset p store => Sys2Proof.Machine.execEngineReset p store s
  | .throttlingEnd temp watts clocks => Sys2Proof.Machine.execThrottlingEnd temp watts clocks s
  | .powerOff => Sys2Proof.Machine.execPowerOff s
  | .mboxUnknownCommand mb tag cmd => Sys2Proof.Machine.execMboxUnknownCommand mb tag cmd s

end Sys2Proof.Machine
end

