-- ==== Sys2Proof/Machine/Chooser.lean ====
section
/-! DEFINITION. What the package does next of its own accord when nothing is on the agenda (log entry 1); the placing of a bundle where a core fetches (log entry 4). -/

namespace Sys2Proof.Machine

/-- The event that answers a request at its home (R332). -/
def reqEvent (r : Req) : Instr :=
  match r.kind with
  | .read => if r.forwarded then .forwardedRead r.id else .homeRead r.id false
  | .wiRead => if r.forwarded then .forwardedRead r.id else .homeWiRead r.id false
  | .write | .atom => .homeWriteAccept r.id false
  | .own => .homeOwnRequest r.id false

/-- The events of a core that may be due. -/
def coreEvents (k : Nat) (x : Core) : List Instr :=
  let c := BitVec.ofNat 5 k
  (if x.walks = [] then [] else [.walkerAnswer c]) ++
  (if x.engq = [] then [] else [.engineAccept c]) ++
  (x.chans.filterMap fun e => if e.2.run.isSome then some (Instr.copyGranuleLands c (BitVec.ofNat 4 e.1)) else none) ++
  (if x.halyard = [] then []
   else [.halyardEntryEnd c false, .halyardEntryEnd c true, .mmaGroupEnd c, .attnPageEnd c, .kvFaultService c,
         .halyardEntryStart c false, .halyardEntryStart c true]) ++
  (if x.journal = [] then [] else [.filerFileEntry c])

/-- The events of an engine thread that may be due. -/
def threadEvents (t : Thread) : List Instr :=
  match t.cmd.op with
  | 4 => [.putAckReturn t.id, .engineThreadComplete t.id]
  | 9 => [.spindleDecide t.id]
  | 24 => [.kvlendRun t.id, .engineThreadComplete t.id]
  | 31 => [.qsendDeferredDeliver t.id, .engineThreadComplete t.id]
  | _ => [.engineThreadComplete t.id]

/-- The events of a launch that may be due. -/
def launchEvents (i : Nat) (l : Launch) : List Instr :=
  if l.stage = .final then []
  else [.dependenceDecided i, .dispatchGang i, .passedOverTimeout i, .preemptionCall i]

/-- The events of a partition that may be due. -/
def partEvents (q : Nat) (x : Part) : List Instr :=
  let p := BitVec.ofNat 3 q
  (x.flips.map fun f => .biasFlipEffect p (BitVec.ofNat 23 (f.1 - q * 2 ^ 20))) ++
  (x.wants.map fun w => .controllerPromote p (BitVec.ofNat 6 w.1) (BitVec.ofNat 32 w.2)) ++
  (x.stores.filterMap fun e => match e.2 with | some t => if t.ladderDue then some (.ladderRun p (BitVec.ofNat 6 e.1)) else none | none => none) ++
  (x.stores.flatMap fun e => match e.2 with | some t => t.moves.map fun r => .moveCommit p (BitVec.ofNat 6 e.1) (BitVec.ofNat 32 r) | none => []) ++
  x.scrubs.map fun i => .scrubberRun p (BitVec.ofNat 6 i)

/-- The events of the package that may be due. Loads land every fourth ns, so that a core whose context polls a line it holds waits,
and passes issue (R225; log entry 1). -/
def State.due (s : State) : List Instr :=
  (s.reqs.map reqEvent) ++ (if s.timebase.toNat % 4 = 0 then s.loads.map fun l => .globalLoadLands l.id else []) ++
  (s.cores.flatMap fun e => coreEvents e.1 e.2) ++ (s.threads.flatMap threadEvents) ++
  (s.launches.zipIdx.flatMap fun e => launchEvents e.2 e.1) ++ (s.parts.flatMap fun e => partEvents e.1 e.2) ++
  ((List.range 8).filterMap fun k =>
    match (s.shroud k).state with
    | .draining => some (Instr.shroudDrainEnd (BitVec.ofNat 3 k))
    | .zeroising => some (Instr.shroudZeroiseEnd (BitVec.ofNat 3 k))
    | .off | .ready => none) ++
  (s.retiring.map fun r => Instr.l2UeDetect r.line (Config.l2Set r.line) 0) ++
  (if s.mail.state = 1 ∧ s.mail.cmd = 0x22 then [.migratePause .pf 0 true] else [])

/-- Whether an event would change the state. -/
def State.changes (s : State) (i : Instr) : Bool :=
  match exec i s with
  | .next t => decide (t ≠ s)
  | .fault _ | .refused _ => false

/-- The first event due that changes anything; the timebase's tick when none does, and once in every round of the cores. -/
def State.nextEvent (s : State) : Instr :=
  if s.turn = 0 then .timebaseTick
  else (s.due.find? s.changes).getD .timebaseTick

/-- The state after one of the two kinds of turn: the next core after its clock, the other kind after each. -/
def State.passTurn (s : State) (was : Phase) (turn : Nat) : State :=
  match was with
  | .clock => { s with phase := .event, turn := (turn + 1) % 32 }
  | .event => { s with phase := .clock }

/-- What comes next: the head of the agenda, else the clock of the core whose turn it is, else an event. -/
def State.nextInstr (s : State) : Instr :=
  match s.agenda with
  | i :: _ => i
  | [] =>
    match s.phase with
    | .clock => .bundle (BitVec.ofNat 5 s.turn)
    | .event => s.nextEvent

/-- A next state under f; a fault or a refusal stays. -/
def mapNext (f : State → State) : Host.Outcome State Fault Refusal → Host.Outcome State Fault Refusal
  | .next t => .next (f t)
  | .fault e => .fault e
  | .refused r => .refused r

/-- One step: what comes next happens, and is taken off the agenda or passes the turn. -/
def State.advance (s : State) : Host.Outcome State Fault Refusal :=
  match s.agenda with
  | i :: r => exec i { s with agenda := r }
  | [] => mapNext (fun t => t.passTurn s.phase s.turn) (exec s.nextInstr s)

/-- A launch of a single unit on core 0, as withFetchWord presumes one: text from address 0. -/
def placedLaunch (id : Nat) : Launch :=
  { id := id, p := 0, va := 0, record := natBytes 128 0, stage := .running, outcome := none, code := 0, verdict := 0
    slice := 0, failed := none, next := 1, total := 1, outstanding := 1, triggered := 0, trig := false, since := 0, passed := none
    kept := false, claim := [], saved := [], fault := 0, owed := [], owedBad := false, met := [] }

/-- The bundle w placed where core 0 fetches next: the package up, partition 0 open with one page of text, a unit of a running
launch on context 0, which holds issue (log entry 4). -/
def State.place0 (s : State) (nbits w : Nat) : State :=
  let page : PageMap := { frame := 0, mtype := .hbm, r := true, w := true, x := true, a := true, cacheable := true, gate := 0 }
  let n := w % 2 ^ nbits
  let s := s.updShroud 0 fun h => { h with state := .ready, gateClosed := false, partFirst := 0 }
  let s := s.updPart 0 fun x => { x with pages := Tab.set none x.pages 0 (some page) }
  let s : State := { s with mem := Mem.writeN s.mem 0 32 n, boot := 0xFF, powered := true, agenda := [], phase := .clock, turn := 0 }
  let l := s.launches.length
  let s : State := { s with launches := s.launches ++ [placedLaunch s.freshId], nextLaunch := s.nextLaunch + 1 }
  let s := s.setCtx 0 { Ctx.reset with unit := some ⟨l, 0, 0, false⟩ }
  s.updCore 0 fun x => { x with holder := some 0, lastHolder := 0, passTo := none, frozen := 0, thaw := false, health := .whole }

end Sys2Proof.Machine
end

