-- ==== Sys2Proof/Machine/Step.lean ====
section
/-! DEFINITION. One step of the package, and where a step fetches (log entries 1, 4, 5). -/

namespace Sys2Proof.Machine

/-- One step. -/
def step (s : State) : Host.Outcome State Fault Refusal := s.advance

/-- The state with the bundle whose bits are w placed where step fetches its next instruction. -/
def State.withFetchWord (s : State) (nbits w : Nat) : State := s.place0 nbits w

end Sys2Proof.Machine
end

