-- ==== Sys2Proof/Safety.lean ====
section
/-! DEFINITION. What statements about the LX8 are made of: a core at work on one context alone, the issue of one bundle there, well-formed memories. -/

namespace Sys2Proof

/-- The scalar, vector and transform instructions: their results go to registers alone (R92 to R126, R148 to R157). -/
def Instr.registerOnly : Instr → Bool
  | .add _ _ _ | .sub _ _ _ | .mul _ _ _ | .mulh _ _ _ | .mulhn _ _ _ | .div _ _ _ | .divn _ _ _ | .rem _ _ _ | .remn _ _ _
  | .and _ _ _ | .or _ _ _ | .xor _ _ _ | .andn _ _ _ | .shl _ _ _ | .shr _ _ _ | .sra _ _ _ | .min _ _ _ | .max _ _ _ | .minn _ _ _
  | .maxn _ _ _ | .clz _ _ | .popc _ _ | .sel _ _ _ _ | .addi _ _ _ | .andi _ _ _ | .ori _ _ _ | .xori _ _ _ | .shli _ _ _
  | .shri _ _ _ | .srai _ _ _ | .li _ _ | .lis _ _ | .adds _ _ _ _ | .cmp _ _ _ _ | .cmpi _ _ _ _ | .pand _ _ _ | .por _ _ _
  | .pxor _ _ _ | .setx _ _ _ | .movbt _ _ | .mfbt _ _ | .mfc _ _ | .mtc _ _ | .fadd _ _ _ | .fsub _ _ _ | .fmul _ _ _ | .ffma _ _ _
  | .fmin _ _ _ | .fmax _ _ _ | .fcmp _ _ _ _ | .fcvti _ _ _ | .icvtf _ _ _ | .vadd _ _ _ _ _ _ | .vsub _ _ _ _ _ _
  | .vmul _ _ _ _ _ _ | .vfma _ _ _ _ _ _ | .vfms _ _ _ _ _ _ | .vmin _ _ _ _ _ _ | .vmax _ _ _ _ _ _ | .vabs _ _ _ _ _
  | .vneg _ _ _ _ _ | .vabd _ _ _ _ _ _ | .vand _ _ _ _ _ _ | .vor _ _ _ _ _ _ | .vxor _ _ _ _ _ _ | .vshl _ _ _ _ _ _
  | .vshr _ _ _ _ _ _ | .vsra _ _ _ _ _ _ | .vadds _ _ _ _ _ _ | .vsubs _ _ _ _ _ _ | .vcmpeq _ _ _ _ _ _ | .vcmplt _ _ _ _ _ _
  | .vcmple _ _ _ _ _ _ | .vsel _ _ _ _ _ _ | .vexp2 _ _ _ _ _ | .vlog2 _ _ _ _ _ | .vrcp _ _ _ _ _ | .vrsq _ _ _ _ _
  | .vcvt _ _ _ _ _ _ _ | .vbcast _ _ _ _ _ _ | .vbcs _ _ _ _ _ | .vperm _ _ _ _ _ _ | .vredadd _ _ _ _ _ | .vredmax _ _ _ _ _
  | .vredmin _ _ _ _ _ | .vscan _ _ _ _ _ | .vdot4 _ _ _ _ _ _ | .vmov _ _ _ _ _ | .viota _ _ _ _ _ | .vmskp _ _ _ _ | .vmskc _ _ _ _
  | .vshuf _ _ _ _ _ _ | .vmovs _ _ _ _ _ | .vins _ _ _ _ _ _ | .xcvt _ _ _ _ _ _ | .xqnt _ _ _ _ _ _ | .xdeq _ _ _ _ _ | .xtrn _ _ _
  | .xexp _ _ _ | .xcmp _ _ _ | .xscl _ _ | .xstat _ _ | .xpack _ _ _ | .xunpk _ _ _ => true
  | _ => false

/-- The slot and the source codes, position by position, of an instruction that reads rows by the codes of R15 (R28 to R31). -/
def Instr.rowSources : Instr → Option (Nat × List (BitVec 6))
  | .vadd vs _ _ _ a b | .vsub vs _ _ _ a b | .vmul vs _ _ _ a b | .vfma vs _ _ _ a b | .vfms vs _ _ _ a b
    | .vmin vs _ _ _ a b | .vmax vs _ _ _ a b | .vabd vs _ _ _ a b | .vand vs _ _ _ a b | .vor vs _ _ _ a b
    | .vxor vs _ _ _ a b | .vshl vs _ _ _ a b | .vshr vs _ _ _ a b | .vsra vs _ _ _ a b | .vadds vs _ _ _ a b
    | .vsubs vs _ _ _ a b | .vcmpeq vs _ _ _ a b | .vcmplt vs _ _ _ a b | .vcmple vs _ _ _ a b | .vsel vs _ _ _ a b
    | .vperm vs _ _ _ a b | .vdot4 vs _ _ _ a b => some (vs.slot, [a, b])
  | .vabs vs _ _ _ a | .vneg vs _ _ _ a | .vexp2 vs _ _ _ a | .vlog2 vs _ _ _ a | .vrcp vs _ _ _ a | .vrsq vs _ _ _ a
    | .vredadd vs _ _ _ a | .vredmax vs _ _ _ a | .vredmin vs _ _ _ a | .vscan vs _ _ _ a | .vmov vs _ _ _ a
    | .vcvt vs _ _ _ a _ _ | .vbcast vs _ _ _ a _ | .vshuf vs _ _ _ a _ | .vmskp vs _ _ a | .vmskc vs _ _ a
    | .vmovs vs _ _ a _ => some (vs.slot, [a])
  | .xcvt _ _ _ _ _ a | .xqnt _ _ _ _ _ a | .xdeq _ _ _ _ a | .xtrn _ _ a | .xexp _ _ a | .xcmp _ _ a | .xscl _ a
    | .xpack _ _ a | .xunpk _ _ a => some (6, [a])
  | .stl a _ _ | .stlp a _ _ | .stg a _ _ _ | .stgp a _ _ _ => some (4, [a])
  | .acarryImp _ _ _ a => some (5, [a])
  | _ => none

end Sys2Proof

namespace Sys2Proof.Machine

/-- s(i) of context g (R69). -/
def State.S (s : State) (g : Nat) (i : BitVec 6) : Word := (s.ctx g).regs.getS i.toNat
/-- p(i) of context g (R69). -/
def State.P (s : State) (g : Nat) (i : BitVec 4) : Bool := (s.ctx g).regs.getP i.toNat
/-- The bundle address of context g. -/
def State.pc (s : State) (g : Nat) : Word := (s.ctx g).regs.pc
/-- The partition of context g. -/
def State.partG (s : State) (g : Nat) : Nat := s.partOf (g / 4)

/-- Context g holds issue on its core, whose clock comes next; no trap, pre-emption or bubble of its own is under way, nothing
in flight falls due, and the core's other contexts have no unit: the clock that comes does what g's bundle says, and nothing
beside. -/
structure State.Alone (s : State) (g : Nat) : Prop where
  turn : s.turn = g / 4
  holder : (s.core (g / 4)).holder = some (g % 4)
  noSwitch : (s.core (g / 4)).passTo = none
  notFrozen : (s.core (g / 4)).frozen = 0
  notHalf : (s.core (g / 4)).half = false
  whole : (s.core (g / 4)).health = .whole
  still : (s.core (g / 4)).moving = 0
  noPorts : (s.core (g / 4)).ports = []
  unit : (s.ctx g).unit.isSome = true
  notStopped : (s.ctx g).stopped = false
  notEnding : (s.ctx g).ending = false
  notCalled : (s.ctx g).preempt = false
  noTrap : (s.ctx g).pend = none
  noBubble : (s.ctx g).bubble = 0
  noYield : (s.ctx g).yielding = false
  landed : ∀ f ∈ (s.ctx g).flights, f.remain ≠ 0 ∧ f.old = false
  noneBusy : (s.ctx g).busy = []
  noMarks : (s.ctx g).marks = []
  alone : ∀ c, c < 4 → c ≠ g % 4 → (s.ctx (4 * (g / 4) + c)).unit = none

/-- Context g is alone at work, outside any protected segment. -/
structure State.Solo (s : State) (g : Nat) : Prop extends s.Alone g where
  noSeg : (s.ctx g).seg = none
  outside : (s.ctx g).regs.inSeg = false

/-- The step ends: results in flight come one step nearer, the step and its issue are counted (R219, R223). -/
def Ctx.close (c : Ctx) : Ctx := { c.advance with perfIssue := c.perfIssue + 1 }

/-- What ends an issue step: the loops turn (R80), the step is counted (R219, R223). -/
def State.endStep (s : State) (g : Nat) (pc : Word) : State :=
  let s := if (s.ctx g).regs.loops = [] then s else s.updCtx g fun c => c.turn pc
  (s.updCtx g Ctx.close).unthaw (g / 4)

/-- The trap that follows a bundle, if one does (R87, R102). -/
def State.after (s : State) (g : Nat) (tells : Nat := 0) : State :=
  match (s.ctx g).afterIssue with
  | some t => s.raise g (t.tell tells)
  | none => s

/-- One issue step of a solo context: the pc moves on, the operation has its effect, the step ends (R13, R223). `fence`: the
operation orders what is in flight before it (R227); `tells`: the id a rendezvous gives to a trap of its bundle (R90). -/
def State.issue (s : State) (g : Nat) (effect : State → State) (fence : Bool := false) (tells : Nat := 0) : State :=
  ((effect (s.updCtx g (Ctx.moveOn ((s.ctx g).waited || fence)))).endStep g (s.pc g)).after g tells

/-- A step in which the operation fails with a trap, and has no effect (R13). -/
def State.fails (s : State) (g : Nat) (t : Trap) : State := (s.unthaw (g / 4)).raise g t

/-- A step in which the operation waits: results advance, the step counts as waited (R222), a freeze before it was for nothing (R229);
stepped, the step ends in a trap (R102). -/
def State.waits (s : State) (g : Nat) (tells : Nat := 0) : State :=
  let s := (s.updCtx g fun c => { c.advance with waited := true, perfStall := c.perfStall + (s.core (g / 4)).weight }).unthaw (g / 4)
  if (s.ctx g).steps then
    s.raise g (Trap.tell tells { code := .step, slot := 255, pc := (s.ctx g).regs.pc, epc := (s.ctx g).regs.pc, blocked := true })
  else s

/-- The instruction, alone in its bundle, issues and has that effect. -/
def State.Runs (s : State) (g : Nat) (i : Instr) (effect : State → State) (fence : Bool := false) (tells : Nat := 0) : Prop :=
  exec i s = .next (s.issue g effect fence tells)
/-- The instruction, alone in its bundle, raises a trap at issue. -/
def State.Traps (s : State) (g : Nat) (i : Instr) (t : Trap) : Prop := exec i s = .next (s.fails g t)
/-- The instruction, alone in its bundle, waits at stage 3; what its wait sets going gives the state s'. A bundle that has frozen has
passed stage 3, and waits for nothing more (R229). -/
def State.Waits (s : State) (g : Nat) (i : Instr) (s' : State) (tells : Nat := 0) : Prop :=
  (s.core (g / 4)).thaw = false → exec i s = .next (s'.waits g tells)

/-- The instruction, alone in its bundle, waits for nothing and meets no bank conflict (R13 stage 3, R20). -/
def State.passes (s : State) (g : Nat) (i : Instr) (slot : Nat) : Prop :=
  ∀ op b, opOf i = some op → singlePrep i slot op (s.ctx g).regs.pc = .ok b → stage3 s g b = none ∧ freezeOf s g b = 0

/-- What a slot of context g sees at issue (R13). -/
def State.env (s : State) (g slot : Nat) : Env := envOf s g slot 0
/-- A vector source of a slot, as operand `pos`, read by context g (R15). -/
def State.src (s : State) (g slot pos : Nat) (code : BitVec 6) : Except Trap Row := (s.env g slot).src pos code
/-- The rows that codes of context g name are read without a bank conflict, or its freeze is over (R20). -/
def State.portsFree (s : State) (g : Nat) (codes : List (BitVec 6)) : Prop :=
  (s.core (g / 4)).thaw = true ∨
  ∀ b < 6, ((((s.env g 0).rowKeys codes).eraseDups).filter fun r => bankOf r == b).length ≤ 1
/-- Every column queue that codes name holds a row (R127). -/
def State.queuesFull (s : State) (g : Nat) (codes : List (BitVec 6)) : Prop :=
  ∀ q ∈ queueCodes codes, Tab.get [] (s.core (g / 4)).queues q ≠ []

/-- A result for s(d), v, due `lat` steps after the step of issue (R14): the effect of an operation whose only result it is. -/
def State.givesS (s : State) (g slot lat : Nat) (d : BitVec 6) (v : Word) (fl : Flags := 0) (t : State) : State :=
  t.fly g { kind := 3, remain := lat, dest := d.toNat, slot := slot, flags := fl, value := v }
/-- A result for the predicate pair p(2j), p(2j+1) (R95). -/
def State.givesPair (s : State) (g slot lat : Nat) (j : BitVec 3) (b : Bool) (t : State) : State :=
  t.fly g { kind := 4, remain := lat, dest := j.toNat, slot := slot, value := if b then 1 else 0 }
/-- A result for an index base (kind 5), a branch target (6) or a control register (7) (R98, R99, R72). -/
def State.givesK (s : State) (g slot kind lat dest : Nat) (v : Word) (t : State) : State :=
  t.fly g { kind := kind, remain := lat, dest := dest, slot := slot, value := v }
/-- A row result for the destination code d, or with nwb for the slot's result latch alone (R16, R107). -/
def State.givesRow (s : State) (g slot lat : Nat) (nwb : Bool) (d : BitVec 6) (v : Row) (fl : Flags) (t : State) : State :=
  t.fly g { kind := if nwb then 2 else 1, remain := lat, dest := (s.env g slot).dst d, slot := slot, flags := fl, row := v }
/-- The operand latches of a slot capture what positions 0, 1, … are delivered (R106). -/
def State.captures (s : State) (g slot : Nat) : List (Nat × Row) → State → State
  | [], t => t
  | (pos, v) :: r, t => s.captures g slot r ((s.env g slot).capture pos v t)

/-- The rows that the sources of a slot at positions `pos`, `pos + 1`, … deliver (R15). -/
def State.srcsFrom (s : State) (g slot : Nat) : Nat → List (BitVec 6) → List Row → Prop
  | _, [], xs => xs = []
  | _, _ :: _, [] => False
  | pos, a :: as, x :: xs => s.src g slot pos a = .ok x ∧ s.srcsFrom g slot (pos + 1) as xs
/-- The source codes of a slot deliver those rows, in positions 0, 1, 2, at once: no row bank is read twice, no queue they name is
empty (R15, R20, R127). -/
def State.Sources (s : State) (g slot : Nat) (codes : List (BitVec 6)) (rows : List Row) : Prop :=
  s.srcsFrom g slot 0 codes rows ∧ s.portsFree g codes ∧ s.queuesFull g codes
/-- Latches capture what the sources deliver, then a row result is under way. -/
def State.vector (s : State) (g slot lat : Nat) (nwb : Bool) (d : BitVec 6) (xs : List Row) (r : Row × Flags) (t : State) : State :=
  s.givesRow g slot lat nwb d r.1 r.2 (s.captures g slot (xs.zipIdx.map fun e => (e.2, e.1)) t)

/-- An entry of context g joins the halyard's queue (R163). -/
def State.enters (s : State) (g : Nat) (h : HEntry) (t : State) : State :=
  t.updCore (g / 4) fun c =>
    { c with halyard := c.halyard ++ [{ h with id := c.nextEntry, c := g % 4, pc := s.pc g }], nextEntry := c.nextEntry + 1 }
/-- A command of context g is handed to its core's engines (R192, R193): their queue, the object it completes set running. -/
def State.sends (g : Nat) (c : EngCmd) (t : State) : State := t.fork (g / 4) c
/-- A command of context g: its unit and launch, the launch its writes act under (R193, R340). -/
def State.cmd (s : State) (g op : Nat) : EngCmd :=
  { op := op, g := g, by_ := (s.ctx g).unit.map fun u => (u.launch, u.index), launch := (s.ctx g).launch, tag := s.tagOf g }
/-- The engine queue of a context's core has room (R192). -/
def State.engineRoom (s : State) (g : Nat) : Prop := (s.core (g / 4)).engq.length < 32
/-- A command's completion object stands: address 0 names none (log entry 44); another can be read and written, and no write of the core
to it is under way (R191, R193). -/
def State.objectReady (s : State) (g co : Nat) : Prop :=
  co = 0 ∨ ∃ pa, s.resolve (s.partG g) (BitVec.ofNat 64 co) 32 .read = .ok pa ∧ s.resolve (s.partG g) (BitVec.ofNat 64 co) 32 .write = .ok pa ∧
    s.resolve (s.partG g) (BitVec.ofNat 64 co) 8 .write = .ok pa ∧ ∀ i < 16, s.writePending (g / 4) (pa + i) = false
/-- The completion object an address names. -/
def object (co : Nat) : Option Word := if co = 0 then none else some (BitVec.ofNat 64 co)
/-- A result that lands in s(d) when it can (R198), with what lands beside it. -/
def State.answers (g : Nat) (d : BitVec 6) (v : Word) (t : State) (also wu : List (Nat × Word) := []) : State :=
  (also.foldl (fun (t : State) x => t.updCtx g fun c => c.setBusy x.1 t.nextReq) t).addLoad
    { id := 0, g := g, dest := sKey d.toNat, va := 0, pa := 0, size := 8, known := [], asked := 0, answer := some v, also := also, wu := wu }
/-- A context's own tiles `tile` to `tile + n − 1`, and their plane's first where the carry is used (R159). -/
def State.ownsTiles (s : State) (g tile n : Nat) (carry : Bool) : Prop :=
  (∀ i < n, Tab.get none (s.core (g / 4)).tOwner (tile + i) = some (g % 4)) ∧
  (carry = true → Tab.get none (s.core (g / 4)).tOwner (6 * (tile / 6)) = some (g % 4))

/-- A taken branch (R78): the target follows after two bubble steps, and with `pop` it leaves the loops whose body it is outside
of (R82). -/
def State.jumps (g : Nat) (target : Word) (pop : Bool) (t : State) : State :=
  t.updCtx g fun c => { c with
    bubble := 2, regs := { c.regs with pc := target, loops := if pop then keepLoops target c.regs.loops else c.regs.loops } }
/-- An acquire at a scope finds no load or atomic of context g outstanding (R325). -/
def State.drained (s : State) (g scope : Nat) : Prop := 2 ≤ scope → ∀ l ∈ s.loads, l.g ≠ g
/-- A global range of a context's partition is readable, or writable, and lies at physical address pa (R131). -/
def State.reaches (s : State) (g : Nat) (va : Word) (align : Nat) (acc : Acc) (pa : Nat) : Prop :=
  s.resolve (s.partG g) va align acc = .ok pa
/-- The 64-bit word at its home (R83). -/
def State.word64 (s : State) (pa : Nat) : Word := BitVec.ofNat 64 (s.homeN pa 8)

/-- A mailbox takes a command: it exists, runs none, and its block's address is aligned (R377). -/
def State.mailFree (s : State) (mb : Mbox) : Prop :=
  s.mboxExists mb = true ∧ (s.mailOf mb).state ≠ 1 ∧ (s.mailOf mb).arg.toNat % 512 = 0
/-- A command that has had its effect ends with an answer (R377). -/
def State.mailDone (s : State) (mb : Mbox) (cmd : Nat) (tag : BitVec 8) (answer : Nat) (effect : State → State) : State :=
  (effect (s.setMail mb { s.mailOf mb with cmd := cmd, tag := tag.toNat })).mailEnd mb tag.toNat 0 answer

/-- The memories of the package are in canonical form: entries at rising addresses, none that equals what an unlisted byte reads
as (log entry 2). -/
def State.MemWf (s : State) : Prop := Mem.wf s.mem = true

end Sys2Proof.Machine
end

