-- ==== Sys2Proof/Certificates/Slice0/Obligations.lean ====
section
/-! DEFINITION. The statements about the LX8. -/

open Sys2Proof Sys2Proof.Machine

/-! ### Reset -/

/-- What a package reset leaves of what the spec gives a value: every shroud off behind a closed gate with its own number at 1.8 GHz
(R361, R393), the thresholds (R360), the power limit and boot stage (R392), no count of a barrier network (R209), no launch, no unit,
predicates with p0 true (R69), patterns, descriptors, carries and histograms of zeros (R158, R160, R214). That the memories list
nothing, and so read zero, and that scalars and rows are zero before a unit starts is the model's choice (log entries 2, 3). -/
def Obligations.ResetValues : Prop :=
  let s := State.reset
  s.MemWf ∧ (∀ a, Mem.read s.mem a = 0) ∧
  (∀ k, let h := s.shroud k
    h.state = .off ∧ h.gateClosed = true ∧ h.partFirst = k ∧ h.partLog2 = 0 ∧ h.clk = 36 ∧ h.probes = 0 ∧ h.refused = 0 ∧
    (∀ n, Tab.get 0 h.hist n = 0)) ∧
  let l := s.limit.toNat
  field l 38 6 = 1 ∧ field l 32 6 = 4 ∧ field l 22 10 = 512 ∧ field l 8 14 = 4096 ∧ s.plimit = 2200 ∧ s.boot = 0 ∧ s.chipMaster = 0 ∧ s.throttled = false ∧ s.hot = false ∧
  (∀ p n, Tab.get 0 (s.part p).bars n = 0) ∧ s.launches = [] ∧
  (∀ g, let c := s.ctx g
    c.unit = none ∧ c.regs.getP 0 = true ∧ c.regs.getP 1 = false ∧ c.regs.trapVec = 0 ∧ c.regs.trapRec = 0 ∧ c.regs.fpstat = 0 ∧
    c.cpat = 0 ∧ c.astat = 0 ∧ (∀ i, Tab.get 0 c.td i = 0) ∧ c.regs.loops = [] ∧
    (∀ i, c.regs.getS i = 0) ∧ (∀ i, c.getV i = 0) ∧ (∀ i, c.regs.getLatch i = none)) ∧
  (∀ k, let x := s.core k
    x.split = 0 ∧ x.holder = none ∧ x.halyard = [] ∧ x.engq = [] ∧ (∀ q, Tab.get [] x.queues q = []) ∧
    (∀ i, Tab.get 0 x.bm i = 0) ∧ (∀ i, Tab.get 0 x.bl i = 0) ∧ (∀ i, Tab.get 0 x.cells i = 0))

/-! ### Steps and bundles -/

/-- A step runs the decoded instruction: when the bundle at the pc of the context that holds issue decodes to one operation i under
p0, the clock that the step makes is exec of i, and the turn passes. What stands on the agenda comes first (log entry 1). -/
def Obligations.StepRunsTheDecodedInstruction : Prop :=
  ∀ s : State,
    (∀ i r, s.agenda = i :: r → step s = exec i { s with agenda := r }) ∧
    (s.agenda = [] → s.phase = .clock → s.turn < 32 → ∀ c pa i, (s.core s.turn).holder = some c →
      let g := 4 * s.turn + c
      s.resolve (s.partG g) (s.pc g) 32 .fetch = .ok pa → decodeTableWord 256 (s.homeN pa 32) = some i → (encode i).isSome = true →
      ∃ t, exec i s = .next t ∧ exec (.bundle (BitVec.ofNat 5 s.turn)) s = .next t ∧
        step s = .next { t with phase := .event, turn := (s.turn + 1) % 32 })

/-- R9, R12, R13, R20, R127, R131, R228, R229, R344: a bundle whose fetch or decode fails traps and has no effect (the slot of the trap
where several exceed their allotment, and an RDV's id8 in the record, are the model's reading: log entries 70 and 76); one that pops an
empty queue waits; one whose rows collide in a bank freezes first, and issues as it was fetched once the freeze is over; one whose guards
are all false pops its queues and takes its step; operations that all succeed read the state before the bundle and take effect in slot
order, then each queue of the pop mask loses its head; when the first that fails traps, no slot has an effect, and no queue is popped. -/
def Obligations.BundlesIssueAsOne : Prop :=
  ∀ (s : State) (g : Nat), s.Solo g → g < 128 →
    let issues (t : State) : Prop := exec (.bundle (BitVec.ofNat 5 (g / 4))) s = .next t
    let frozen : Prop := (s.core (g / 4)).thaw = true
    (∀ t, ¬frozen → s.resolve (s.partG g) (s.pc g) 32 .fetch = .error t →
      issues (s.fails g { code := t, addr := s.pc g, pc := s.pc g, epc := s.pc g, isFetch := true, gate := t == .window, anySlot := true })) ∧
    (∀ n, (if frozen then n = (s.core (g / 4)).fetched
        else ∃ pa, s.resolve (s.partG g) (s.pc g) 32 .fetch = .ok pa ∧ n = s.homeN pa 32) →
      (∀ e, decodeBundle n = .error e → issues (s.fails g (match e with
        | .illegalOp => { code := .illegalOp, slot := badSlot n, pc := s.pc g, epc := s.pc g }
        | .illegalOperand => { code := .illegalOperand, slot := badSlot n, pc := s.pc g, epc := s.pc g }
        | .illegalBundle => { code := .illegalBundle, slot := badSlot n, pc := s.pc g, epc := s.pc g }))) ∧
      (∀ b, decodeBundle n = .ok b →
        let ctl := slotWord n 0
        let bundle := prepOf n b
        let act := bundle.active s g
        let fence := bundle.fences s g
        let moved := s.updCtx g (Ctx.moveOn ((s.ctx g).waited || fence))
        let clash := freezeOf s g bundle
        let heads : Prop := ∀ q < 4, b.pop.testBit q = true → Tab.get [] (s.core (g / 4)).queues q ≠ []
        (¬frozen → ¬heads → issues (s.waits g bundle.tells)) ∧
        ((∀ o ∈ b.ops, s.P g (BitVec.ofNat 4 o.2.1) = false) → frozen ∨ heads →
          issues (s.issue g (fun t => t.pops (g / 4) b.pop) fence bundle.tells)) ∧
        (¬frozen → stage3 s g bundle = none → clash ≠ 0 → issues (s.updCore (g / 4) fun x =>
          { x with frozen := clash - 1, thaw := true, fetched := n, perfFreeze := x.perfFreeze + 1 })) ∧
        (frozen ∨ stage3 s g bundle = none ∧ clash = 0 →
          (∀ u, issueOps s g ctl act moved = .ok u → (u.ctx g).seg = none →
            issues (((u.pops (g / 4) b.pop).endStep g (s.pc g)).after g bundle.tells)) ∧
          (∀ t, issueOps s g ctl act moved = .error t → issues (s.fails g (t.tell bundle.tells)))))) ∧
    (∀ (t : State) (pop q : Nat), q < 4 →
      Tab.get [] ((t.pops (g / 4) pop).core (g / 4)).queues q =
        if pop.testBit q then (Tab.get [] (t.core (g / 4)).queues q).tail else Tab.get [] (t.core (g / 4)).queues q)

/-- Words written out from the encoding tables decode to the operations they stand for (R22 to R33). -/
def Obligations.WordsDecode : Prop :=
  decodeCop 0x00127FFB = .ok (some (.brc 4 (-5))) ∧
  decodeCop 0x004A4800 = .ok (some (.waitCoDone 2 16)) ∧
  decodeSlot 1 0x07C51234 = .ok (some (0, .li 5 0x1234)) ∧
  decodeSlot 2 0x0100020C = .ok (some (0, .vfma .va .fp32 false 0 8 12)) ∧
  decodeSlot 4 0x40540801 = .ok (some (4, .ldl 20 2 1)) ∧
  decodeSlot 4 0x03C10004 = .ok (some (0, .fenceAcq 4)) ∧
  decodeSlot 5 0x01400010 = .ok (some (0, .mzero 0 1)) ∧
  decodeSlot 6 0x01480207 = .ok (some (0, .xexp 2 8 7)) ∧
  decodeSlot 7 0x00430002 = .ok (some (0, .copy 3 2))

/-! ### The scalar slot -/

/-- R92: the three-register operations, their values on 64 bits and their latencies. -/
def Obligations.ScalarRegisterForms : Prop :=
  ∀ (s : State) (g : Nat), s.Solo g → ∀ d a b : BitVec 6,
    let x := s.S g a
    let y := s.S g b
    let n := y.toNat % 64
    s.Runs g (.add d a b) (s.givesS g 1 1 d (x + y)) ∧
    s.Runs g (.sub d a b) (s.givesS g 1 1 d (x - y)) ∧
    s.Runs g (.mul d a b) (s.givesS g 1 3 d (BitVec.ofNat 64 (x.toNat * y.toNat))) ∧
    s.Runs g (.mulh d a b) (s.givesS g 1 3 d (BitVec.ofInt 64 (x.toInt * y.toInt / 2 ^ 64))) ∧
    s.Runs g (.mulhn d a b) (s.givesS g 1 3 d (BitVec.ofNat 64 (x.toNat * y.toNat / 2 ^ 64))) ∧
    s.Runs g (.and d a b) (s.givesS g 1 1 d (x &&& y)) ∧
    s.Runs g (.or d a b) (s.givesS g 1 1 d (x ||| y)) ∧
    s.Runs g (.xor d a b) (s.givesS g 1 1 d (x ^^^ y)) ∧
    s.Runs g (.andn d a b) (s.givesS g 1 1 d (x &&& ~~~y)) ∧
    s.Runs g (.shl d a b) (s.givesS g 1 1 d (x <<< n)) ∧
    s.Runs g (.shr d a b) (s.givesS g 1 1 d (x >>> n)) ∧
    s.Runs g (.sra d a b) (s.givesS g 1 1 d (BitVec.ofInt 64 (x.toInt / 2 ^ n))) ∧
    s.Runs g (.min d a b) (s.givesS g 1 1 d (BitVec.ofInt 64 (Min.min x.toInt y.toInt))) ∧
    s.Runs g (.max d a b) (s.givesS g 1 1 d (BitVec.ofInt 64 (Max.max x.toInt y.toInt))) ∧
    s.Runs g (.minn d a b) (s.givesS g 1 1 d (BitVec.ofNat 64 (Min.min x.toNat y.toNat))) ∧
    s.Runs g (.maxn d a b) (s.givesS g 1 1 d (BitVec.ofNat 64 (Max.max x.toNat y.toNat))) ∧
    (∃ n ≤ 64, x.toNat < 2 ^ (64 - n) ∧ (n < 64 → 2 ^ (63 - n) ≤ x.toNat) ∧
      s.Runs g (.clz d a) (s.givesS g 1 1 d (BitVec.ofNat 64 n))) ∧
    s.Runs g (.popc d a) (s.givesS g 1 1 d (BitVec.ofNat 64 ((List.range 64).countP fun i => x.getLsbD i)))

/-- R47: division and remainder never trap; the values of every case, at n+16 (R92). -/
def Obligations.DivisionNeverTraps : Prop :=
  ∀ (s : State) (g : Nat), s.Solo g → ∀ d a b : BitVec 6,
    let x := s.S g a
    let y := s.S g b
    s.Runs g (.divn d a b) (s.givesS g 1 16 d (if y = 0 then BitVec.allOnes 64 else BitVec.ofNat 64 (x.toNat / y.toNat))) ∧
    s.Runs g (.remn d a b) (s.givesS g 1 16 d (if y = 0 then x else BitVec.ofNat 64 (x.toNat % y.toNat))) ∧
    s.Runs g (.div d a b) (s.givesS g 1 16 d (if y = 0 ∨ (x = BitVec.intMin 64 ∧ y = BitVec.allOnes 64) then BitVec.intMin 64
      else BitVec.ofInt 64 (x.toInt.tdiv y.toInt))) ∧
    s.Runs g (.rem d a b) (s.givesS g 1 16 d (if y = 0 then x else if x = BitVec.intMin 64 ∧ y = BitVec.allOnes 64 then 0
      else BitVec.ofInt 64 (x.toInt - x.toInt.tdiv y.toInt * y.toInt)))

/-- R93, R94: the immediate forms with imm10 as R25 extends it, SEL and ADDS; LI sign-extends its sixteen bits, LIS shifts s(d) left by
sixteen and puts its bits below. -/
def Obligations.ScalarImmediateForms : Prop :=
  ∀ (s : State) (g : Nat), s.Solo g → ∀ (d a b : BitVec 6) (i : BitVec 10) (j : BitVec 16) (k : BitVec 4),
    let x := s.S g a
    let y := s.S g b
    s.Runs g (.addi d a i) (s.givesS g 1 1 d (BitVec.ofInt 64 (x.toInt + i.toInt))) ∧
    s.Runs g (.andi d a i) (s.givesS g 1 1 d (x &&& BitVec.ofNat 64 i.toNat)) ∧
    s.Runs g (.ori d a i) (s.givesS g 1 1 d (x ||| BitVec.ofNat 64 i.toNat)) ∧
    s.Runs g (.xori d a i) (s.givesS g 1 1 d (x ^^^ BitVec.ofNat 64 i.toNat)) ∧
    s.Runs g (.shli d a b) (s.givesS g 1 1 d (BitVec.ofNat 64 (x.toNat * 2 ^ b.toNat))) ∧
    s.Runs g (.shri d a b) (s.givesS g 1 1 d (BitVec.ofNat 64 (x.toNat / 2 ^ b.toNat))) ∧
    s.Runs g (.srai d a b) (s.givesS g 1 1 d (BitVec.ofInt 64 (x.toInt / 2 ^ b.toNat))) ∧
    s.Runs g (.sel d a b k) (s.givesS g 1 1 d (if s.P g k then x else y)) ∧
    s.Runs g (.adds d a b k) (s.givesS g 1 1 d (BitVec.ofNat 64 (x.toNat + y.toNat * 2 ^ k.toNat))) ∧
    s.Runs g (.li d j) (s.givesS g 1 1 d (BitVec.ofInt 64 j.toInt)) ∧
    s.Runs g (.lis d j) (s.givesS g 1 1 d (BitVec.ofNat 64 ((s.S g d).toNat * 65536 + j.toNat)))

/-- R26, R95, R96: what a condition tells of two 64-bit values; predicate logic. Their pairs land at n+2. -/
def Obligations.ComparesAndPredicates : Prop :=
  ∀ (s : State) (g : Nat), s.Solo g → ∀ (j : BitVec 3) (c : Cond) (a b : BitVec 6) (i : BitVec 9) (p q : BitVec 4), j ≠ 0 →
    let holds (x y : Word) : Bool := match c with
      | .eq => decide (x = y)
      | .ne => decide (x ≠ y)
      | .lt => decide (x.toInt < y.toInt)
      | .ge => decide (y.toInt ≤ x.toInt)
      | .le => decide (x.toInt ≤ y.toInt)
      | .gt => decide (y.toInt < x.toInt)
      | .ltn => decide (x.toNat < y.toNat)
      | .gen => decide (y.toNat ≤ x.toNat)
      | .len => decide (x.toNat ≤ y.toNat)
      | .gtn => decide (y.toNat < x.toNat)
      | .bits => decide (x &&& y ≠ 0)
      | .nbits => decide (x &&& y = 0)
      | .un | .ord => false
    let imm : Word := match c with
      | .ltn | .gen | .len | .gtn => BitVec.ofNat 64 i.toNat
      | _ => BitVec.ofInt 64 i.toInt
    (c.intOk = true →
      s.Runs g (.cmp j c a b) (s.givesPair g 1 2 j (holds (s.S g a) (s.S g b))) ∧
      s.Runs g (.cmpi j c a i) (s.givesPair g 1 2 j (holds (s.S g a) imm))) ∧
    s.Runs g (.pand j p q) (s.givesPair g 1 2 j (s.P g p && s.P g q)) ∧
    s.Runs g (.por j p q) (s.givesPair g 1 2 j (s.P g p || s.P g q)) ∧
    s.Runs g (.pxor j p q) (s.givesPair g 1 2 j (s.P g p ^^ s.P g q))

/-- R72, R73, R98, R99: SETX lands at n+3, MOVBT at n+2, MFBT at n+1; MFC reads every control register; MTC writes one that may be
written, its value in range, at n+1. An MTC to a register that may not be written raises ACCESS, one of trap.vec or trap.epc that is no
multiple of 32 ALIGN; nothing is written. -/
def Obligations.RegisterMoves : Prop :=
  ∀ (s : State) (g : Nat), s.Solo g → ∀ (x : BitVec 2) (bt : BitVec 3) (d a : BitVec 6) (i : BitVec 8) (cr : BitVec 12),
    s.Runs g (.setx x a i) (s.givesK g 1 5 3 x.toNat (BitVec.ofNat 64 (((s.S g a).toNat + i.toNat) % 192))) ∧
    s.Runs g (.movbt bt a) (s.givesK g 1 6 2 bt.toNat (s.S g a)) ∧
    s.Runs g (.mfbt d bt) (s.givesS g 1 1 d ((s.ctx g).regs.getBt bt.toNat)) ∧
    (crOk cr = true →
      s.Runs g (.mfc d cr) (s.givesS g 1 1 d (s.readCr g cr.toNat)) ∧
      (mtcCheck (s.env g 1) cr.toNat (s.S g a) = none → s.Runs g (.mtc cr a) (s.givesK g 1 7 1 cr.toNat (s.S g a))) ∧
      (crWritable cr.toNat = false → s.Traps g (.mtc cr a) ((s.env g 1).trap .access)) ∧
      (cr = 0x010 ∨ cr = 0x011 → (s.S g a).toNat % 32 ≠ 0 → s.Traps g (.mtc cr a) ((s.env g 1).trap .align)))

/-- R100, R101, R95: the FP32 scalar operations on s(a)[31:0] and s(b)[31:0]: results, zero-extended, and flags land at n+4; FCMP
lands at n+2 and raises no flag. -/
def Obligations.ScalarFloat : Prop :=
  ∀ (s : State) (g : Nat), s.Solo g → ∀ (d a b : BitVec 6) (j : BitVec 3) (c : Cond) (n64 : Bool),
    let x := (s.S g a).toNat % 2 ^ 32
    let y := (s.S g b).toNat % 2 ^ 32
    let z := (s.S g d).toNat % 2 ^ 32
    let r (v : Nat × Flags) := s.givesS g 1 4 d (BitVec.ofNat 64 v.1) v.2
    s.Runs g (.fadd d a b) (r (fAdd FP32 x y)) ∧
    s.Runs g (.fsub d a b) (r (fSub FP32 x y)) ∧
    s.Runs g (.fmul d a b) (r (fMul FP32 x y)) ∧
    s.Runs g (.ffma d a b) (r (fFma FP32 x y z)) ∧
    s.Runs g (.fmin d a b) (r (fMinNum FP32 x y, 0)) ∧
    s.Runs g (.fmax d a b) (r (fMaxNum FP32 x y, 0)) ∧
    (j ≠ 0 → c.floatOk = true → s.Runs g (.fcmp j c a b) (s.givesPair g 1 2 j (condFloat c (FP32.decode x) (FP32.decode y)))) ∧
    s.Runs g (.fcvti n64 d a) (r (fcvtiVal n64 x)) ∧
    s.Runs g (.icvtf n64 d a) (r (icvtfVal n64 (s.S g a)))

/-! ### The control slot -/

/-- R77 to R79: branches and calls: the target follows two bubbles, CALL and CALLR leave P + 32 for bt7 at n+1, a taken branch out
of a loop's body leaves the loop, a branch through a register to a target that is no multiple of 32 raises ALIGN. -/
def Obligations.BranchesTaken : Prop :=
  ∀ (s : State) (g : Nat), s.Solo g → ∀ (off : BitVec 19) (off15 : BitVec 15) (p : BitVec 4) (bt : BitVec 3),
    let pc := s.pc g
    let target := (s.ctx g).regs.getBt bt.toNat
    let back := (s.ctx g).regs.getBt 7
    let link := s.givesK g 0 6 1 7 (pc + 32)
    s.Runs g (.bra off) (State.jumps g (pc + 32 * BitVec.ofInt 64 off.toInt) true) ∧
    s.Runs g (.brc p off15) (fun t => if s.P g p then State.jumps g (pc + 32 * BitVec.ofInt 64 off15.toInt) true t else t) ∧
    s.Runs g (.call off) (fun t => link (State.jumps g (pc + 32 * BitVec.ofInt 64 off.toInt) false t)) ∧
    (target.toNat % 32 = 0 →
      s.Runs g (.brr bt) (State.jumps g target true) ∧ s.Runs g (.callr bt) (fun t => link (State.jumps g target false t))) ∧
    (target.toNat % 32 ≠ 0 →
      s.Traps g (.brr bt) ((s.env g 0).trap .align target) ∧ s.Traps g (.callr bt) ((s.env g 0).trap .align target)) ∧
    (back.toNat % 32 = 0 → s.Runs g .ret (State.jumps g back false)) ∧
    (back.toNat % 32 ≠ 0 → s.Traps g .ret ((s.env g 0).trap .align back))

/-- R77, R79: the first true test of a BRM picks its target register; a test that does not fire does not check its target; with
no true test the BRM does nothing. -/
def Obligations.BranchManyPicksFirstTrue : Prop :=
  ∀ (s : State) (g : Nat), s.Solo g → ∀ (t0 t1 t2 t3 : BitVec 4) (bt : BitVec 3),
    let target (i : Nat) := (s.ctx g).regs.getBt ((bt.toNat + i) % 8)
    let goes (i : Nat) : Prop :=
      ((target i).toNat % 32 = 0 → s.Runs g (.brm t0 t1 t2 t3 bt) (State.jumps g (target i) true)) ∧
      ((target i).toNat % 32 ≠ 0 → s.Traps g (.brm t0 t1 t2 t3 bt) ((s.env g 0).trap .align (target i)))
    (s.P g t0 = true → goes 0) ∧
    (s.P g t0 = false → s.P g t1 = true → goes 1) ∧
    (s.P g t0 = false → s.P g t1 = false → s.P g t2 = true → goes 2) ∧
    (s.P g t0 = false → s.P g t1 = false → s.P g t2 = false → s.P g t3 = true → goes 3) ∧
    (s.P g t0 = false → s.P g t1 = false → s.P g t2 = false → s.P g t3 = false → s.Runs g (.brm t0 t1 t2 t3 bt) id)

/-- R80: a LOOP pushes its level with s(cnt) runs of its body; with a count of 0 the body is skipped as by a taken branch.
R81: a third level, a body that does not lie within the outer one, a LOOP at the end bundle of an active level raise ILLEGAL_OPERAND. -/
def Obligations.Loops : Prop :=
  ∀ (s : State) (g : Nat), s.Solo g → ∀ (cnt : BitVec 6) (len : BitVec 13), len ≠ 0 →
    let n := s.S g cnt
    let start := s.pc g + 32
    let stop := s.pc g + BitVec.ofNat 64 (32 * len.toNat)
    let ls := (s.ctx g).regs.loops
    (2 ≤ ls.length ∨ (∃ o, ls.getLast? = some o ∧ ¬(o.start.toNat ≤ start.toNat ∧ stop.toNat ≤ o.stop.toNat)) ∨ (∃ o ∈ ls, o.stop = s.pc g) →
      s.Traps g (.loop cnt len) ((s.env g 0).trap .illegalOperand)) ∧
    (ls.length < 2 → (∀ o ∈ ls, o.start.toNat ≤ start.toNat ∧ stop.toNat ≤ o.stop.toNat ∧ o.stop ≠ s.pc g) →
      (n ≠ 0 → s.Runs g (.loop cnt len) fun t => t.updCtx g fun c => { c with regs := { c.regs with loops := c.regs.loops ++ [⟨start, stop, n⟩] } }) ∧
      (n = 0 → s.Runs g (.loop cnt len) (State.jumps g (stop + 32) false)))

/-- R83, R202: every WAIT. Once its condition holds the WAIT completes: it issues, a latency fence, with the acquire of its scope where
it has one (WP_GE: of what its channel has written); while the condition does not hold the bundle waits, and nothing else changes. A
word is read at its home behind what its core and context sent there before; a bank that moves counts as the core's (R76). A channel
above 15 is illegal. -/
def Obligations.Waits : Prop :=
  ∀ (s : State) (g : Nat), s.Solo g → ∀ (scope : BitVec 3) (sa sb : BitVec 6) (pa : Nat),
    let a := s.S g sa
    let b := s.S g sb
    let m := a.toNat
    let n := scope.toNat
    let x := s.core (g / 4)
    let bankFree (b : Nat) : Prop :=
      x.moving.getLsbD b = false ∧ ∀ o, Tab.get none x.banks b = some o → some o.1 = (s.ctx g).launch ∧ o.2 = g % 4
    let ch := Tab.get Chan.idle x.chans m
    let reads (t : State) : State := (t.patchCopies (g / 4) (addrBytes pa (t.homeBytes pa 8))).acquire (g / 4) n
    (s.reaches g a 8 .read pa → s.homeClear g pa = true → s.drained g n → b.toNat ≤ (s.word64 pa).toNat →
      exec (.waitCtrGe scope sa sb) s = .next (s.issue g reads true)) ∧
    (s.reaches g a 8 .read pa → s.homeClear g pa = true → s.drained g n → coFinal (s.word64 pa) = true →
      exec (.waitCoDone scope sa) s = .next (s.issue g reads true)) ∧
    (m ≤ 15 → s.chanStarted (g / 4) m = true → s.drained g n → b.toNat ≤ ch.wp.toNat →
      exec (.waitWpGe scope sa sb) s = .next (s.issue g (fun t => t.acquireWritten (g / 4) n m) true)) ∧
    (m ≤ s.timebase.toNat → exec (.waitTime sa) s = .next (s.issue g id true)) ∧
    ((∀ b < 32, m.testBit b = true → bankFree b) → exec (.waitBanks sa) s = .next (s.issue g id true)) ∧
    ((∀ t < 12, m.testBit t = true → x.tileBusy t = false) → exec (.waitTiles sa) s = .next (s.issue g id true)) ∧
    ((∀ q < 4, m.testBit q = true → Tab.get [] x.queues q ≠ []) → exec (.waitQne sa) s = .next (s.issue g id true)) ∧
    (s.reaches g a 8 .read pa →
      ((s.word64 pa).toNat < b.toNat ∨ s.homeClear g pa = false → s.Waits g (.waitCtrGe scope sa sb) s) ∧
      (coFinal (s.word64 pa) = false ∨ s.homeClear g pa = false → s.Waits g (.waitCoDone scope sa) s)) ∧
    (m ≤ 15 → s.chanStarted (g / 4) m = false ∨ ch.wp.toNat < b.toNat → s.Waits g (.waitWpGe scope sa sb) s) ∧
    (15 < m → s.Traps g (.waitWpGe scope sa sb) ((s.env g 0).trap .illegalOperand)) ∧
    (s.timebase.toNat < m → s.Waits g (.waitTime sa) s) ∧
    ((∃ b < 32, m.testBit b = true ∧ ¬bankFree b) → s.Waits g (.waitBanks sa) s) ∧
    ((∃ t < 12, m.testBit t = true ∧ x.tileBusy t = true) → s.Waits g (.waitTiles sa) s) ∧
    ((∃ q < 4, m.testBit q = true ∧ Tab.get [] x.queues q = []) → s.Waits g (.waitQne sa) s)

/-- R85, R86, R90, R91, R227: YIELD offers issue; DONE, its results landed and its array entries ended, ends the program of its unit, and
the unit is gone at the core's next clock once the release is complete; RDV passes while no other context of the gang on the quad reruns a
segment, and gives a trap of its bundle its id, which the record keeps as code8 (the model's reading of R90, log entry 76: the rerun
meant is another context's); PHASE releases and then acquires at its scope. -/
def Obligations.YieldDoneRdvPhase : Prop :=
  ∀ (s : State) (g : Nat), s.Solo g → ∀ (id8 : BitVec 8) (scope : BitVec 3),
    let ends (t : State) : State := t.updCtx g fun c => { c with ending := true }
    let entriesOver : Prop := ∀ h ∈ (s.core (g / 4)).halyard, h.c ≠ g % 4
    exec .yield s = .next (s.issue g (fun t => t.updCtx g fun c => { c with yielding := true }) true) ∧
    ((s.ctx g).flights = [] → entriesOver → exec .done s = .next (s.issue g ends)) ∧
    (g < 128 → (s.ctx g).flights = [] → entriesOver → s.doneReady g = true →
      ∃ t, exec (.bundle (BitVec.ofNat 5 (g / 4))) (s.issue g ends) = .next t ∧ (t.ctx g).unit = none) ∧
    ((s.ctx g).flights ≠ [] ∨ ¬entriesOver → s.Waits g .done s) ∧
    ((∀ h ∈ s.gangOn g 2, h = g ∨ ∀ q, (s.ctx h).seg = some q → q.run < 2) →
      exec (.rdv id8) s = .next (s.issue g id false id8.toNat)) ∧
    ((∃ h ∈ s.gangOn g 2, h ≠ g ∧ ∃ q, (s.ctx h).seg = some q ∧ 2 ≤ q.run) → s.Waits g (.rdv id8) s id8.toNat) ∧
    (s.released (g / 4) scope.toNat = true → s.drained g scope.toNat →
      exec (.phase scope) s = .next (s.issue g (fun t => t.acquire (g / 4) scope.toNat) true)) ∧
    (s.released (g / 4) scope.toNat = false →
      s.Waits g (.phase scope) (s.publish (g / 4) fun a _ => s.inRange (s.partG g) scope.toNat a))

/-- R87: TRAP and BKPT complete their bundle and then raise SOFT and BKPT: code8 goes to the record, trap.epc is P + 32. -/
def Obligations.SoftTrapAndBreakpoint : Prop :=
  ∀ (s : State) (g : Nat), s.Solo g → ∀ code : BitVec 8,
    let then_ (c : TrapCode) (t : State) : State := t.updCtx g fun x =>
      { x with pend := some { code := c, slot := 0, code8 := code.toNat, pc := s.pc g + 32, epc := s.pc g + 32 } }
    s.Runs g (.trap code) (then_ .soft) ∧ s.Runs g (.bkpt code) (then_ .bkpt)

/-- R345, R348: taking a trap to the handler: with a vector and a record address, outside the handler, the record is written,
trap.epc takes the address to resume at, in_handler is set, issue goes on at trap.vec, and latches, loops and the results in
in flight are left to the record. With no handler to take it the context is terminated: its unit is gone.
R345 to R347: the record fills the 21 760 bytes from trap.rec: zeros, over which its pieces are stored, each at its offset: the header
with the trap's code, reason, slot, code8, count of results in flight, flags, full latches, pc, epc, address and time, the loop levels and
their number, a descriptor and a row for each result in flight, the latch rows. -/
def Obligations.TrapsAreTaken : Prop :=
  (∀ (s : State) (g : Nat) (t : Trap) (abandoned wasSeg : Bool),
    let c := s.ctx g
    let image := s.trapRecord g t abandoned wasSeg
    let results := (c.flights.map Flight.descr).flatten
    let loop (l : Loop) := natBytes 8 l.start.toNat ++ natBytes 8 l.stop.toNat ++ natBytes 8 l.left.toNat
    let va := c.regs.trapRec
    let w : Writer := { tag := s.tagOf g, p := s.partG g }
    (∃ cleared : State, cleared.mem = s.mem ∧ cleared.ctxs = s.ctxs ∧
      s.writeRecord g t abandoned wasSeg = image.foldl (fun u e => u.storeVa w (va + BitVec.ofNat 64 e.1) e.2) (cleared.zeroVa w va 85)) ∧
    (∃ header latches : List Byte, (0, header ++ latches ++ natBytes 8 t.pc.toNat ++ natBytes 8 t.epc.toNat ++ natBytes 8 t.addr.toNat ++
        natBytes 8 s.timebase.toNat) ∈ image ∧
      header = [t.code.num, t.reason, t.slot, t.code8, results.length,
        wasSeg.toNat + 2 * abandoned.toNat + 4 * t.blocked.toNat + 8 * t.isWrite.toNat + 16 * t.isAtomic.toNat + 32 * t.isFetch.toNat].map
          (BitVec.ofNat 8) ∧
      latches.length = 2 ∧ ∀ i < 15, (bytesNat latches).testBit i = (c.regs.getLatch i).isSome) ∧
    (40, (c.regs.loops.map loop).flatten) ∈ image ∧ (88, [BitVec.ofNat 8 c.regs.loops.length]) ∈ image ∧
    (∀ i d, results[i]? = some d → (256 + 16 * i, d.1) ∈ image ∧ (1280 + 256 * i, rowBytes d.2) ∈ image) ∧
    (∀ i < 15, (17664 + 256 * i, rowBytes ((c.regs.getLatch i).getD 0)) ∈ image)) ∧
  ∀ (s : State) (g : Nat) (t : Trap), s.trapReady g = true → (s.ctx g).seg = none → (s.ctx g).attached = false →
    let u := s.raise g t
    (t.anySlot = false → t.gate = false → t.code ≠ .step → t.told = false →
      (s.ctx g).regs.trapVec ≠ 0 → (s.ctx g).regs.trapRec ≠ 0 → (s.ctx g).regs.inHandler = false →
      u.mem = ((s.updCtx g fun c => { c with pend := none, yielding := false }).writeRecord g t false false).mem) ∧
    ((s.ctx g).regs.trapVec = 0 ∨ (s.ctx g).regs.trapRec = 0 ∨ (s.ctx g).regs.inHandler = true → (u.ctx g).unit = none) ∧
    ((s.ctx g).regs.trapVec ≠ 0 → (s.ctx g).regs.trapRec ≠ 0 → (s.ctx g).regs.inHandler = false → (u.ctx g).regs.pc = (s.ctx g).regs.trapVec ∧ (u.ctx g).regs.trapEpc = t.epc ∧ (u.ctx g).regs.inHandler = true ∧
    (u.ctx g).regs.latch = [] ∧ (u.ctx g).regs.loops = [] ∧ (u.ctx g).flights = [] ∧ (u.ctx g).pend = none ∧
    (u.ctx g).regs.s = (s.ctx g).regs.s ∧ (u.ctx g).regs.pred = (s.ctx g).regs.pred ∧ (u.ctx g).regs.bt = (s.ctx g).regs.bt ∧
    (u.ctx g).regs.x = (s.ctx g).regs.x ∧ (u.ctx g).v = (s.ctx g).v ∧ (u.ctx g).regs.fpstat = (s.ctx g).regs.fpstat)

/-- R88, R348: ERET in the handler, its results landed and no atomic of its own on its way: a record that passes the checks gives the
context back, two bubbles before its next bundle; one that fails a check terminates the context with ILLEGAL_OPERAND. While results are
in flight it waits. Outside the handler ERET is illegal. -/
def Obligations.EretReturns : Prop :=
  ∀ (s : State) (g : Nat), s.Solo g →
    let settled : Prop := (s.ctx g).flights = [] ∧ ∀ r ∈ s.reqs, r.g = g → r.kind ≠ .atom ∧ r.atomic = false
    ((s.ctx g).regs.inHandler = true → settled →
      exec .eret s = .next (s.issue g (fun t =>
        let u : State := match t.restoreRecord g with
          | some u => u.updCtx g fun c => { c with regs := { c.regs with trapRec := u.trapRecOf g } }
          | none => t.terminate g 0 { code := 0, source := 0, context := g, trap := 2, pc := s.pc g }
        u.updCtx g fun c =>
            if c.unit.isNone then c
            else { c with bubble := 2, flights := c.flights.map fun f => { f with remain := f.remain + 3 } }) true)) ∧
    ((s.ctx g).flights ≠ [] → s.Waits g .eret s) ∧
    ((s.ctx g).regs.inHandler = false → settled → s.Traps g .eret ((s.env g 0).trap .illegalOperand))

/-- R39, R89, R353: SEGB with an entry of its own in the segment table opens a protected segment: the checkpoint holds the registers,
the entry's numbers are taken, the logs are empty. Past the table's end it is illegal.
R355, R357: SEGE, its segment's results landed and its entries ended, in a run that matches the segment's entry: the segment is over
and the context goes on after it. In a first run that does not match, with no load outstanding, the segment is set back to its
checkpoint and runs a second time. -/
def Obligations.SegmentsOpenCommitAndRerun : Prop :=
  ∀ (s : State) (g : Nat),
  (s.Solo g → ∀ (idx : BitVec 16) (pa : Nat), (s.ctx g).flights = [] →
    let r := (s.ctx g).regs
    let va := r.segBase + BitVec.ofNat 64 (32 * idx.toNat)
    let d := bytesNat (s.seenVa (g / 4) (s.partG g) va 32)
    (idx.toNat < r.segCount.toNat → s.reaches g va 32 .read pa → BitVec.ofNat 64 (field d 0 64) = s.pc g - r.segText →
      ∃ u, exec (.segb idx) s = .next u ∧ (u.ctx g).regs.inSeg = true ∧ u.mem = s.mem ∧ ∃ q, (u.ctx g).seg = some q ∧
        q.run = 1 ∧ q.segbPc = s.pc g ∧ q.check = r ∧ q.base = field d 64 32 ∧ q.loop0 = field d 96 32 ∧ q.loop1 = field d 128 32 ∧
        q.signature = BitVec.ofNat 32 (field d 160 32) ∧ q.stores = [] ∧ q.undo = [] ∧ q.loads = [] ∧ q.deferred = []) ∧
    (r.segCount.toNat ≤ idx.toNat → s.Traps g (.segb idx) ((s.env g 0).trap .illegalOperand))) ∧
  (∀ q : Seg, s.Alone g → (s.ctx g).seg = some q → (s.ctx g).regs.inSeg = true → (s.ctx g).flights = [] →
    (∀ h ∈ (s.core (g / 4)).halyard, h.c ≠ g % 4) → (s.ctx g).regs.step = false → (s.core (g / 4)).thaw = false →
    (q.commits 0x00780000 = true → (s.ctx g).regs.loops = [] → q.stores = [] → q.deferred = [] → q.run = 1 → (s.core (g / 4)).engq.length ≤ 32 →
      ∃ u, exec .sege s = .next u ∧ (u.ctx g).seg = none ∧ (u.ctx g).regs.inSeg = false ∧ (u.ctx g).regs.pc = s.pc g + 32 ∧
        u.mem = s.mem ∧ (u.ctx g).v = (s.ctx g).v ∧ (u.ctx g).regs.s = (s.ctx g).regs.s) ∧
    (q.commits 0x00780000 = false → q.run = 1 → (∀ l ∈ s.loads, l.g ≠ g) →
      ∃ u, exec .sege s = .next u ∧ (u.ctx g).regs.pc = q.segbPc ∧ (u.ctx g).regs.s = q.check.s ∧
        ∃ q', (u.ctx g).seg = some q' ∧ q'.run = 2 ∧ q'.stores = [] ∧ q'.deferred = []))

/-! ### The vector slots -/

/-- R104, R106, R109, R111, R112: arithmetic lane by lane; the operand latches capture what was delivered, the result is due after
four steps under a floating format and two under an integer one. FMA and FMS read their destination as c. -/
def Obligations.VectorArithmetic : Prop :=
  ∀ (s : State) (g : Nat), s.Solo g → ∀ (vs : VSlot) (f : VFmt) (nwb : Bool) (d a b : BitVec 6) (x y c : Row),
    let lat := if f.isFloat then 4 else 2
    let w := f.width
    let one (r : Row × Flags) := s.vector g vs.slot lat nwb d [x] r
    let two (r : Row × Flags) := s.vector g vs.slot lat nwb d [x, y] r
    (dstCode d = true → srcCode a = true → srcCode b = true →
      (s.Sources g vs.slot [a, b] [x, y] →
        s.Runs g (.vadd vs f nwb d a b) (two (zipRow w (addLane f) x y)) ∧
        s.Runs g (.vsub vs f nwb d a b) (two (zipRow w (subLane f) x y)) ∧
        s.Runs g (.vmul vs f nwb d a b) (two (zipRow w (mulLane f) x y)) ∧
        s.Runs g (.vmin vs f nwb d a b) (two (zipRow w (minLane f) x y)) ∧
        s.Runs g (.vmax vs f nwb d a b) (two (zipRow w (maxLane f) x y)) ∧
        s.Runs g (.vabd vs f nwb d a b) (two (zipRow w (abdLane f) x y))) ∧
      (s.Sources g vs.slot [a, b, d] [x, y, c] →
        s.Runs g (.vfma vs f nwb d a b) (s.vector g vs.slot lat nwb d [x, y, c] (zip3Row w (fmaLane f) c x y)) ∧
        s.Runs g (.vfms vs f nwb d a b) (s.vector g vs.slot lat nwb d [x, y, c] (zip3Row w (fmsLane f) c x y)))) ∧
    (f.notN = true → dstCode d = true → srcCode a = true → s.Sources g vs.slot [a] [x] →
      s.Runs g (.vabs vs f nwb d a) (one (mapRow w (absLane f) x)) ∧
      s.Runs g (.vneg vs f nwb d a) (one (mapRow w (negLane f) x)))

/-- R112 to R115: integer lanes: results wrap, the saturating forms clamp to the format's range, shift counts are the lane's low
bits, compares give all ones or zeros and no flag. -/
def Obligations.IntegerLanes : Prop :=
  ∀ (f : VFmt), f.isFloat = false → ∀ a < 2 ^ f.width, ∀ b < 2 ^ f.width, ∀ c < 2 ^ f.width,
    let m : Int := 2 ^ f.width
    let v (z : Nat) : Int := if f.isSigned ∧ 2 ^ (f.width - 1) ≤ z then (z : Int) - m else z
    let lo : Int := if f.isSigned then -(2 ^ (f.width - 1)) else 0
    let hi : Int := if f.isSigned then 2 ^ (f.width - 1) - 1 else m - 1
    let is (r : Nat × Flags) (z : Int) : Prop := r.1 < 2 ^ f.width ∧ (r.1 : Int) = z % m ∧ r.2 = 0
    is (addLane f a b) (v a + v b) ∧ is (subLane f a b) (v a - v b) ∧ is (mulLane f a b) (v a * v b) ∧
    is (fmaLane f c a b) (v c + v a * v b) ∧ is (fmsLane f c a b) (v c - v a * v b) ∧
    is (minLane f a b) (min (v a) (v b)) ∧ is (maxLane f a b) (max (v a) (v b)) ∧ is (abdLane f a b) (v a - v b).natAbs ∧
    is (absLane f a) (v a).natAbs ∧ is (negLane f a) (-v a) ∧
    is (satLane f (fun x y => x + y) a b) (max lo (min hi (v a + v b))) ∧
    is (satLane f (fun x y => x - y) a b) (max lo (min hi (v a - v b))) ∧
    is (shiftLane f (fun x n => x * 2 ^ n % 2 ^ f.width) a b) ((a : Int) * 2 ^ (b % f.width)) ∧
    is (shiftLane f (fun x n => x / 2 ^ n) a b) ((a : Int) / 2 ^ (b % f.width)) ∧
    (f.isSigned = true → is (shiftLane f (fun x n => wrap f.width (signExt x f.width / 2 ^ n)) a b) (v a / 2 ^ (b % f.width))) ∧
    is (cmpLane f FV.eqv (fun x y => decide (x = y)) a b) (if v a = v b then m - 1 else 0) ∧
    is (cmpLane f FV.lt (fun x y => decide (x < y)) a b) (if v a < v b then m - 1 else 0) ∧
    is (cmpLane f (fun x y => FV.lt x y || FV.eqv x y) (fun x y => decide (x ≤ y)) a b) (if v a ≤ v b then m - 1 else 0)

/-- R104, R113 to R116: logic on the 2048 bits, shifts, saturating sums and differences, compares, VSEL with its destination row as
the mask; each due after two steps. -/
def Obligations.VectorLogicShiftsCompares : Prop :=
  ∀ (s : State) (g : Nat), s.Solo g → ∀ (vs : VSlot) (f : VFmt) (nwb : Bool) (d a b : BitVec 6) (x y c : Row),
    let w := f.width
    let two (r : Row × Flags) := s.vector g vs.slot 2 nwb d [x, y] r
    dstCode d = true → srcCode a = true → srcCode b = true →
      (s.Sources g vs.slot [a, b] [x, y] →
        s.Runs g (.vand vs f nwb d a b) (two (x &&& y, 0)) ∧
        s.Runs g (.vor vs f nwb d a b) (two (x ||| y, 0)) ∧
        s.Runs g (.vxor vs f nwb d a b) (two (x ^^^ y, 0)) ∧
        s.Runs g (.vcmpeq vs f nwb d a b) (two (zipRow w (cmpLane f FV.eqv fun x y => decide (x = y)) x y)) ∧
        s.Runs g (.vcmplt vs f nwb d a b) (two (zipRow w (cmpLane f FV.lt fun x y => decide (x < y)) x y)) ∧
        s.Runs g (.vcmple vs f nwb d a b) (two (zipRow w (cmpLane f (fun x y => FV.lt x y || FV.eqv x y) fun x y => decide (x ≤ y)) x y)) ∧
        (f.isFloat = false →
          s.Runs g (.vshl vs f nwb d a b) (two (zipRow w (shiftLane f fun x n => x * 2 ^ n % 2 ^ w) x y)) ∧
          s.Runs g (.vshr vs f nwb d a b) (two (zipRow w (shiftLane f fun x n => x / 2 ^ n) x y)) ∧
          s.Runs g (.vadds vs f nwb d a b) (two (zipRow w (satLane f fun x y => x + y) x y)) ∧
          s.Runs g (.vsubs vs f nwb d a b) (two (zipRow w (satLane f fun x y => x - y) x y)) ∧
          (f.isSigned = true →
            s.Runs g (.vsra vs f nwb d a b) (two (zipRow w (shiftLane f fun x n => wrap w (signExt x w / 2 ^ n)) x y))))) ∧
      (s.Sources g vs.slot [a, b, d] [x, y, c] →
        s.Runs g (.vsel vs f nwb d a b) (s.vector g vs.slot 2 nwb d [x, y, c] ((x &&& c) ||| (y &&& ~~~c), 0)))

/-- R53, R118, R119: EXP2, LOG2, RCP and RSQ of every lane, due at n+8; VCVT between formats, due at n+4. -/
def Obligations.VectorFunctionsAndConversion : Prop :=
  ∀ (s : State) (g : Nat), s.Solo g → ∀ (vs : VSlot) (f from_ : VFmt) (nwb inf : Bool) (d a : BitVec 6) (x : Row),
    dstCode d = true → srcCode a = true → s.Sources g vs.slot [a] [x] →
      let lane (h : _) := s.vector g vs.slot 8 nwb d [x] (mapRow f.width (transLane f.float h) x)
      (f.isFloat = true →
        s.Runs g (.vexp2 vs f nwb d a) (lane exp2) ∧ s.Runs g (.vlog2 vs f nwb d a) (lane log2) ∧
        s.Runs g (.vrcp vs f nwb d a) (lane rcp) ∧ s.Runs g (.vrsq vs f nwb d a) (lane rsq)) ∧
      (from_ ≠ f → (inf = true → f.infOk = true) →
        s.Runs g (.vcvt vs f nwb d a from_ inf) (s.vector g vs.slot 4 nwb d [x] (cvtRow from_.toX f.toX inf x)))

/-- R117, R120 to R123: broadcasts, moves, VIOTA, VPERM by the lane a natural index names modulo n, VSHUF by its pattern, lanes to
and from scalars, mask reductions to a pair and to a scalar. R15, R108: whatever instruction reads it, a source code 40 to 47 that
names an empty bypass latch, or code 63 on an empty operand latch, raises LATCH_STALE at issue. -/
def Obligations.VectorMoves : Prop :=
  ∀ (s : State) (g : Nat), s.Solo g → ∀ (vs : VSlot) (f : VFmt) (nwb : Bool) (d a b k : BitVec 6) (j : BitVec 3) (x y c : Row),
    let w := f.width
    let n := f.lanes
    let lane (r : Row) (i : Nat) : Nat := r.toNat / 2 ^ (w * i) % 2 ^ w
    let row (h : Nat → Nat) : Row × Flags := (packRow w ((List.range n).map h), 0)
    (dstCode d = true →
      s.Runs g (.vbcs vs f nwb d k) (s.vector g vs.slot 2 nwb d [] (row fun _ => (s.S g k).toNat)) ∧
      (f.isFloat = false → s.Runs g (.viota vs f nwb d k) (s.vector g vs.slot 2 nwb d [] (row fun i => (s.S g k).toNat + i)))) ∧
    (∀ (i : Instr) (slot pos l : Nat) (codes : List (BitVec 6)) (h : BitVec 6), i.wellFormed = true → i.rowSources = some (slot, codes) →
      codes[pos]? = some h → (h.toNat = 40 + l ∧ l < 8 ∨ h = 63 ∧ opLatch slot pos = some l) → (s.ctx g).regs.getLatch l = none →
      s.passes g i slot → s.Traps g i ((s.env g slot).trap .latchStale)) ∧
    (dstCode d = true → srcCode a = true → s.Sources g vs.slot [a] [x] →
      s.Runs g (.vmov vs f nwb d a) (s.vector g vs.slot 2 nwb d [x] (x, 0)) ∧
      s.Runs g (.vbcast vs f nwb d a k) (s.vector g vs.slot 3 nwb d [x] (row fun _ => lane x k.toNat)) ∧
      (shufOk k.toNat n = true →
        s.Runs g (.vshuf vs f nwb d a k) (s.vector g vs.slot 3 nwb d [x]
          (row fun i => match shufLane k.toNat n i with | some i' => lane x i' | none => 0)))) ∧
    (dstCode d = true → srcCode a = true → srcCode b = true → s.Sources g vs.slot [a, b] [x, y] →
      s.Runs g (.vperm vs f nwb d a b) (s.vector g vs.slot 3 nwb d [x, y] (row fun i => lane x (lane y i % n)))) ∧
    (dstCode d = true → s.src g vs.slot 2 d = .ok c → s.portsFree g [d] →
      s.Runs g (.vins vs f nwb d a k) (fun t => s.givesRow g vs.slot 3 nwb d
        (packRow w ((List.range n).map fun i => if i = k.toNat then (s.S g a).toNat % 2 ^ w else lane c i)) 0
        ((s.env g vs.slot).capture 2 c t))) ∧
    (srcCode a = true → s.Sources g vs.slot [a] [x] →
      let cnt := (List.range n).countP fun i => lane x i ≠ 0
      let got (t : State) := s.captures g vs.slot [(0, x)] t
      s.Runs g (.vmskc vs f d a) (fun t => s.givesS g vs.slot 2 d (BitVec.ofNat 64 cnt) 0 (got t)) ∧
      (j ≠ 0 → s.Runs g (.vmskp vs f j a) (fun t => s.givesPair g vs.slot 2 j (decide (cnt ≠ 0)) (got t))) ∧
      s.Runs g (.vmovs vs f d a k) (fun t => s.givesS g vs.slot 3 d
        (if f.isSigned ∧ 2 ^ (w - 1) ≤ lane x k.toNat then BitVec.ofInt 64 ((lane x k.toNat : Int) - 2 ^ w) else BitVec.ofNat 64 (lane x k.toNat)) 0
        (got t)))

/-- R67, R124 to R126: reductions leave their value in lane 0, VSCAN the partial results in every lane, due at n+6; VDOT4 adds four
products to each 32-bit lane, wrapping, due at n+4. -/
def Obligations.VectorReductions : Prop :=
  ∀ (s : State) (g : Nat), s.Solo g → ∀ (vs : VSlot) (f : VFmt) (nwb : Bool) (d a b : BitVec 6) (x y c : Row),
    let w := f.width
    let l := lanes x w
    let last (op : Nat → Nat → Nat × Flags) : Row × Flags := (packRow w [(reduce f op l).1.getLastD 0], (reduce f op l).2)
    (dstCode d = true → srcCode a = true → s.Sources g vs.slot [a] [x] →
      s.Runs g (.vredadd vs f nwb d a) (s.vector g vs.slot 6 nwb d [x] (last (addLane f))) ∧
      s.Runs g (.vredmax vs f nwb d a) (s.vector g vs.slot 6 nwb d [x] (last (maxLane f))) ∧
      s.Runs g (.vredmin vs f nwb d a) (s.vector g vs.slot 6 nwb d [x] (last (minLane f))) ∧
      s.Runs g (.vscan vs f nwb d a) (s.vector g vs.slot 6 nwb d [x] (packRow w (reduce f (addLane f) l).1, (reduce f (addLane f) l).2))) ∧
    (f = .i8 ∨ f = .n8 → dstCode d = true → srcCode a = true → srcCode b = true → s.Sources g vs.slot [a, b, d] [x, y, c] →
      let v (r : Row) (i : Nat) : Int := if f = .i8 then (BitVec.ofNat 8 (r.toNat / 2 ^ (8 * i))).toInt else (BitVec.ofNat 8 (r.toNat / 2 ^ (8 * i))).toNat
      s.Runs g (.vdot4 vs f nwb d a b) (s.vector g vs.slot 4 nwb d [x, y, c]
        (packRow 32 ((List.range 64).map fun i =>
          (((c.toNat / 2 ^ (32 * i) % 2 ^ 32 : Nat) + ((List.range 4).map fun k => v x (4 * i + k) * v y (4 * i + k)).sum) % (2 ^ 32 : Int)).toNat), 0)))


/-! ### The transform slot -/

/-- R31, R53, R148 to R157: conversions, quantisation, dequantisation, transposition, the codec, packing: what each row becomes and
when it is due; XSCL to a scale register, XSTAT of the statistics pair. XEXP of a row whose header is invalid, or has another ceiling than the
instruction's, raises ILLEGAL_OPERAND at issue. Element 8j + i of XTRN's row is element m·i + j of the source (R156). -/
def Obligations.Transforms : Prop :=
  (∀ (s : State) (g : Nat), s.Solo g → ∀ (tgt from_ : XFmt) (bf inf clr : Bool) (sc : BitVec 3) (w cl : BitVec 2) (d a : BitVec 6) (x : Row),
    let scale := (s.ctx g).regs.getSc sc.toNat
    let gives (lat : Nat) (r : Row × Flags) := s.vector g 6 lat false d [x] r
    (dstCode d = true → s.Runs g (.xstat clr d) fun t =>
      t.fly g { kind := 11, remain := 6, dest := (s.env g 6).dst d, slot := 6, value := if clr then 1 else 0 }) ∧
    (srcCode a = true → s.Sources g 6 [a] [x] →
      s.Runs g (.xscl sc a) fun t => (s.captures g 6 [(0, x)] t).fly g { kind := 8, remain := 5, dest := sc.toNat, slot := 6, row := x }) ∧
    (dstCode d = true → srcCode a = true → s.Sources g 6 [a] [x] →
      (tgt.plain = true → from_.plain = true → tgt ≠ from_ → (inf = true → tgt.infOk = true) →
        s.Runs g (.xcvt tgt from_ false inf d a) (gives 4 (cvtRow from_ tgt inf x)) ∧
        s.Runs g (.xcvt tgt from_ true inf d a) (fun t => (s.env g 6).flyStat (gives 4 (cvtRow from_ tgt inf x) t) 4 tgt from_ false inf x 0)) ∧
      (tgt.scaled = true → (tgt = .e4m3 ∨ sc = 0) →
        let r := xqntRow tgt bf scale x
        s.Runs g (.xqnt tgt bf sc false d a) (gives 6 (r.1, r.2.1)) ∧
        s.Runs g (.xqnt tgt bf sc true d a) (fun t =>
          (s.env g 6).flyStat (gives 6 (r.1, r.2.1) t) 6 tgt (if bf then .bf16 else .fp32) true false x (if tgt = .e4m3 then scale else 0))) ∧
      (from_.scaled = true → (from_ = .e4m3 ∨ sc = 0) → s.Runs g (.xdeq from_ bf sc d a) (gives 4 (xdeqRow from_ bf scale x))) ∧
      (w ≠ 3 → s.Runs g (.xtrn w d a) (gives 8 (xtrnRow (32 / 2 ^ w.toNat) x, 0))) ∧
      (headerOk ((rowBytes x).headD 0) = true → headerCeil ((rowBytes x).headD 0) = cl.toNat →
        s.Runs g (.xexp cl d a) (gives 5 (bytesRow (blockDecode (rowBytes x)), 0))) ∧
      (headerOk ((rowBytes x).headD 0) = false ∨ headerCeil ((rowBytes x).headD 0) ≠ cl.toNat →
        s.Traps g (.xexp cl d a) ((s.env g 6).trap .illegalOperand)) ∧
      s.Runs g (.xcmp cl d a) (gives 5 (xcmpRow cl.toNat x, 0)) ∧
      (from_.packable = true →
        s.Runs g (.xpack from_ d a) (gives 4 (xpackRow from_ x, 0)) ∧ s.Runs g (.xunpk from_ d a) (gives 4 (xunpkRow from_ x, 0))))) ∧
  (∀ (w : BitVec 2), w ≠ 3 → ∀ (x : Row),
    let bits := 32 / 2 ^ w.toNat
    let m := 2048 / bits / 8
    ∀ i < 8, ∀ j < m,
      (xtrnRow bits x).toNat / 2 ^ (bits * (8 * j + i)) % 2 ^ bits = x.toNat / 2 ^ (bits * (m * i + j)) % 2 ^ bits)

/-! ### The load-store slot -/

/-- R129, R130, R135, R141, R147: transfers and atomics of the scratchpad whose address stands, not blocked by an array entry: loads are
due at n+6, stores are made, a post-increment is due at n+1; LDLX decodes the two blocks that lie at its address.
A row access that is misaligned raises ALIGN, one past the split ACCESS, its address in the trap. -/
def Obligations.ScratchpadAccesses : Prop :=
  ∀ (s : State) (g : Nat), s.Solo g → ∀ (d b : BitVec 6) (i : BitVec 8) (sz : BitVec 2) (off : BitVec 6) (x : Row) (fn : AtomFn) (w64 : Bool),
    let m := (s.core (g / 4)).ram
    let base := s.S g b
    let near := base + BitVec.ofInt 64 (i.toInt * 256)
    let z : Nat := 2 ^ sz.toNat
    let small := base + BitVec.ofInt 64 (off.toInt * z)
    let next := s.givesS g 4 1 b near
    let put (a : Word) (n v : Nat) (t : State) : State := t.updCore (g / 4) fun c => { c with ram := Mem.writeN c.ram a.toNat n v }
    let loads (a : Word) (n : Nat) : Prop := s.localCheck g a n n = none ∧ (s.core (g / 4)).loadBlocked a.toNat n = false
    let stores (a : Word) (n : Nat) : Prop := s.localCheck g a n n = none ∧ (s.core (g / 4)).storeBlocked a.toNat n = false
    let bad (c : TrapCode) (w : Bool) : Trap := { (s.env g 4).trap c near with isWrite := w }
    let edge := (s.core (g / 4)).split * 524288
    let row (a : Word) := s.givesRow g 4 6 false d (Mem.readRow m a.toNat) 0
    (dstCode d = true →
      (near.toNat % 256 ≠ 0 → s.Traps g (.ldl d b i) (bad .align false)) ∧
      (near.toNat % 256 = 0 → edge < near.toNat + 256 → s.Traps g (.ldl d b i) (bad .access false)) ∧
      (loads near 256 → s.Runs g (.ldl d b i) (row near)) ∧
      (loads base 256 → s.Runs g (.ldlp d b i) (fun t => next (row base t))) ∧
      (s.expandCheck g near = none →
        let l := rowEncoding m near.toNat
        (s.core (g / 4)).loadBlocked near.toNat (l.1 + l.2) = false →
        s.Runs g (.ldlx d b i) (s.givesRow g 4 6 false d
          (bytesRow (blockDecode (Mem.readBytes m near.toNat l.1) ++ blockDecode (Mem.readBytes m (near.toNat + l.1) l.2))) 0))) ∧
    (srcCodeNoHold d = true → s.Sources g 4 [d] [x] →
      (near.toNat % 256 ≠ 0 → s.Traps g (.stl d b i) (bad .align true)) ∧
      (near.toNat % 256 = 0 → edge < near.toNat + 256 → s.Traps g (.stl d b i) (bad .access true)) ∧
      (stores near 256 → s.Runs g (.stl d b i) (put near 256 x.toNat)) ∧
      (stores base 256 → s.Runs g (.stlp d b i) (fun t => next (put base 256 x.toNat t)))) ∧
    (loads small z → s.Runs g (.ldls d b sz off) (s.givesS g 4 6 d (BitVec.ofNat 64 (Mem.readN m small.toNat z)))) ∧
    (stores small z → s.Runs g (.stls d b sz off) (put small z (s.S g d).toNat)) ∧
    (atomOk fn w64 d = true →
      let n := if w64 then 8 else 4
      let old := Mem.readN m base.toNat n
      let v := (s.S g d).toNat % 2 ^ (8 * n)
      let new := if fn = .cas then (s.S g (d + 1)).toNat % 2 ^ (8 * n) else 0
      stores base n → s.Runs g (.atoml fn w64 d b) (fun t => s.givesS g 4 6 d (BitVec.ofNat 64 old) 0 (put base n (atomVal fn (8 * n) old v new) t)))

/-- The frame of scratchpad stores: every byte of the core's scratchpad outside the bytes stored to, all else of the core but the mark of a
freeze that is over, every other core and context, the memories of the package, and of the context all but the pc with its loop levels (R80),
what is in flight and the counts of its steps are as before: rows, scalars, predicates, index bases, branch targets, scale registers,
latches, fpstat, trap.*, seg.*, wu.*, the descriptors, the pattern, astat and the statistics pair. A post-increment and an atomic's result
are still to land. -/
def Obligations.ScratchpadStoreFrame : Prop :=
  ∀ (s : State) (g : Nat), s.Solo g → (s.ctx g).regs.step = false →
    ∀ (d b : BitVec 6) (i : BitVec 8) (sz : BitVec 2) (off : BitVec 6) (fn : AtomFn) (w64 : Bool) (x : Row) (t : State),
    let k := g / 4
    let base := s.S g b
    let near := base + BitVec.ofInt 64 (i.toInt * 256)
    let z : Nat := 2 ^ sz.toNat
    let small := base + BitVec.ofInt 64 (off.toInt * z)
    let n := if w64 then 8 else 4
    let stores (a : Word) (n : Nat) : Prop := s.localCheck g a n n = none ∧ (s.core k).storeBlocked a.toNat n = false
    let frame (a : Word) (n : Nat) : Prop :=
      (∀ c, c < a.toNat ∨ a.toNat + n ≤ c → Mem.read (t.core k).ram c = Mem.read (s.core k).ram c) ∧
      (∀ j, j ≠ k → t.core j = s.core j) ∧ t.mem = s.mem ∧ t.shrouds = s.shrouds ∧ t.reqs = s.reqs ∧ (∀ h, h ≠ g → t.ctx h = s.ctx h) ∧
      t.core k = { s.core k with ram := (t.core k).ram, thaw := (t.core k).thaw } ∧
      t.ctx g = { s.ctx g with
        regs := { (s.ctx g).regs with pc := (t.ctx g).regs.pc, loops := (t.ctx g).regs.loops }
        flights := (t.ctx g).flights, waited := (t.ctx g).waited, yielding := (t.ctx g).yielding
        perfSteps := (t.ctx g).perfSteps, perfIssue := (t.ctx g).perfIssue }
    (srcCodeNoHold d = true → s.Sources g 4 [d] [x] →
      (stores near 256 → exec (.stl d b i) s = .next t → frame near 256) ∧
      (stores base 256 → exec (.stlp d b i) s = .next t → frame base 256)) ∧
    (stores small z → exec (.stls d b sz off) s = .next t → frame small z) ∧
    (atomOk fn w64 d = true → stores base n → exec (.atoml fn w64 d b) s = .next t → frame base n)

/-- R131 to R136, R139, R323: a global load whose page the TLB knows and may be read, with room for it: the load is outstanding, its
destination busy from now on; an SI load takes bytes that the core holds unpublished from there; for every byte not at hand its line is
asked of the home: read under SI, for a copy to keep, and under WT, read and shared under WI, registered under OWN. LDGP's base is due one
bundle later, post-incremented. Memory does not change. Each of the three whose page no TLB knows waits, its page asked of the walker; one with
32 outstanding, or words it waits to own, waits. One whose address is not canonical raises ACCESS, misaligned ALIGN, without a mapping PAGE,
without the right or in a pod window ACCESS, in a window that is down or does not admit the partition WINDOW, its address in the trap. -/
def Obligations.GlobalLoadsIssue : Prop :=
  ∀ (s : State) (g : Nat), s.Solo g → (s.ctx g).regs.step = false → (s.ctx g).regs.loops = [] →
    ∀ (d b : BitVec 6) (cp : Pol) (i : BitVec 8) (sz : BitVec 2) (off : BitVec 6) (m : Option PageMap) (pa : Nat),
    let base := s.S g b
    let near := base + BitVec.ofInt 64 (i.toInt * 256)
    let z : Nat := 2 ^ sz.toNat
    let small := base + BitVec.ofInt 64 (off.toInt * z)
    let ready (va : Word) (n : Nat) : Prop := s.tlbAt (g / 4) va = some m ∧ s.globalCheck (s.partG g) va n .read m = .ok pa ∧
      s.outstanding g < 32 ∧ s.grantPending g pa n = false ∧ canonical va = true ∧ va.toNat % n = 0
    let issued (j : Instr) (key : Nat) (va : Word) (n : Nat) : Prop :=
      ∃ u, exec j s = .next u ∧ u.mem = s.mem ∧ (u.ctx g).regs.pc = s.pc g + 32 ∧ (key ≠ sKey 0 → (u.ctx g).isBusy key = true) ∧
        ∃ l, u.loads = s.loads ++ [l] ∧ l.g = g ∧ l.dest = key ∧
          l.va = va ∧ l.pa = pa ∧ l.size = n ∧
          ((s.env g 4).policy va cp = .si → ∀ k < n, ∀ w, Tab.get none (s.core (g / 4)).unpub (pa + k) = some w → (k, w.val) ∈ l.known) ∧
          (∀ k < n, (∀ v, (k, v) ∉ l.known) → ∃ r ∈ u.reqs, r.g = g ∧ r.load = some l.id ∧ r.line = (pa + k) / 128 ∧
            inMask r.words (pa + k) = true ∧ (r.keep = true ↔ (s.env g 4).policy va cp = .si) ∧
            r.kind = match (s.env g 4).policy va cp with | .si | .wt => .read | .wi => .wiRead | .own => .own) ∧
          ((∃ d', j = .ldgp d' b cp i) → ∃ f ∈ (u.ctx g).flights, f.kind = 3 ∧ f.remain = 0 ∧ f.dest = b.toNat ∧ f.value = near)
    let bad (c : TrapCode) (va : Word) : Trap := { (s.env g 4).trap c va with gate := c == .window }
    let refused (j : Instr) (va : Word) (n : Nat) : Prop :=
      (canonical va = false → s.Traps g j (bad .access va)) ∧
      (canonical va = true → va.toNat % n ≠ 0 → s.Traps g j (bad .align va)) ∧
      (canonical va = true → va.toNat % n = 0 →
        (s.tlbAt (g / 4) va = none → s.Waits g j (s.updCore (g / 4) fun c =>
          { c with walks := if c.walks.contains (vpageOf va) then c.walks else c.walks ++ [vpageOf va] })) ∧
        (s.tlbAt (g / 4) va = some none → s.Traps g j (bad .page va)) ∧
        (∀ p, s.tlbAt (g / 4) va = some (some p) →
          (hasRight p .read = false ∨ p.mtype = .pod → s.Traps g j (bad .access va)) ∧
          (∀ w, hasRight p .read = true → p.mtype = .window → s.windowAt p.gate.toNat (pagePa p (va.toNat % 65536)) = some w →
            w.2.up = false ∨ w.2.rights.getLsbD (2 * s.partG g) = false → s.Traps g j (bad .window va))) ∧
        (s.tlbAt (g / 4) va = some m → s.globalCheck (s.partG g) va n .read m = .ok pa → 32 ≤ s.outstanding g ∨ s.grantPending g pa n = true →
          s.Waits g j s))
    (dstCode d = true → ready near 256 → issued (.ldg d b cp i) (rowKey ((s.env g 4).dst d)) near 256) ∧
    (dstCode d = true → ready base 256 → issued (.ldgp d b cp i) (rowKey ((s.env g 4).dst d)) base 256) ∧
    (ready small z → issued (.ldgs d b cp sz off) (sKey d.toNat) small z) ∧
    (dstCode d = true → refused (.ldg d b cp i) near 256 ∧ refused (.ldgp d b cp i) base 256) ∧ refused (.ldgs d b cp sz off) small z

/-- R135, R139, R323: a global store whose page the TLB knows and may be written: under SI its bytes are the core's, unpublished,
in the context's name; under WI and WT they go to their homes at once, under WI with the local copy kept; under OWN each is in a word that
the context holds or asks for. STGP's base is due one bundle later, post-incremented. Memory itself does not change. Waits and traps are
those of a global load (R131 to R133), with the right to write; only an OWN store counts against the 32. -/
def Obligations.GlobalStoresIssue : Prop :=
  ∀ (s : State) (g : Nat), s.Solo g → (s.ctx g).regs.step = false → (s.ctx g).regs.loops = [] →
    ∀ (d b : BitVec 6) (cp : Pol) (i : BitVec 8) (sz : BitVec 2) (off : BitVec 6) (m : Option PageMap) (pa : Nat) (x : Row),
    let base := s.S g b
    let near := base + BitVec.ofInt 64 (i.toInt * 256)
    let z : Nat := 2 ^ sz.toNat
    let small := base + BitVec.ofInt 64 (off.toInt * z)
    let ready (va : Word) (n : Nat) : Prop := s.tlbAt (g / 4) va = some m ∧ s.globalCheck (s.partG g) va n .write m = .ok pa ∧
      (cp = .own → s.outstanding g < 32) ∧ s.grantPending g pa n = false ∧ canonical va = true ∧ va.toNat % n = 0
    let byte (v k : Nat) : Byte := BitVec.ofNat 8 (v / 256 ^ k)
    let stored (j : Instr) (va : Word) (n v : Nat) : Prop :=
      ∃ u, exec j s = .next u ∧ u.mem = s.mem ∧ (u.ctx g).regs.pc = s.pc g + 32 ∧ ∃ new, u.reqs = s.reqs ++ new ∧ ∀ k < n,
        match (s.env g 4).policy va cp with
        | .si => Tab.get none (u.core (g / 4)).unpub (pa + k) = some ⟨byte v k, g, s.tagOf g⟩
        | .wi => ∃ r ∈ new, r.g = g ∧ r.kind = .write ∧ r.wi = true ∧ r.line = (pa + k) / 128 ∧ (pa + k, byte v k) ∈ r.data
        | .wt => ∃ r ∈ new, r.g = g ∧ r.kind = .write ∧ r.wi = false ∧ r.line = (pa + k) / 128 ∧ (pa + k, byte v k) ∈ r.data
        | .own => Tab.get none (u.ctx g).owned (pa + k) = some ⟨byte v k, s.tagOf g⟩ ∨
            ∃ r ∈ new, r.g = g ∧ r.kind = .own ∧ r.line = (pa + k) / 128 ∧ (pa + k, byte v k) ∈ r.data
    let next : Prop := ∀ u, exec (.stgp d b cp i) s = .next u →
      ∃ f ∈ (u.ctx g).flights, f.kind = 3 ∧ f.remain = 0 ∧ f.dest = b.toNat ∧ f.value = near
    let bad (c : TrapCode) (va : Word) : Trap := { (s.env g 4).trap c va with isWrite := true, gate := c == .window }
    let refused (j : Instr) (va : Word) (n : Nat) : Prop :=
      (canonical va = false → s.Traps g j (bad .access va)) ∧
      (canonical va = true → va.toNat % n ≠ 0 → s.Traps g j (bad .align va)) ∧
      (canonical va = true → va.toNat % n = 0 →
        (s.tlbAt (g / 4) va = none → s.Waits g j (s.updCore (g / 4) fun c =>
          { c with walks := if c.walks.contains (vpageOf va) then c.walks else c.walks ++ [vpageOf va] })) ∧
        (s.tlbAt (g / 4) va = some none → s.Traps g j (bad .page va)) ∧
        (∀ p, s.tlbAt (g / 4) va = some (some p) →
          (hasRight p .write = false ∨ p.mtype = .pod → s.Traps g j (bad .access va)) ∧
          (∀ w, hasRight p .write = true → p.mtype = .window → s.windowAt p.gate.toNat (pagePa p (va.toNat % 65536)) = some w →
            w.2.up = false ∨ w.2.rights.getLsbD (2 * s.partG g + 1) = false → s.Traps g j (bad .window va))) ∧
        (s.tlbAt (g / 4) va = some m → s.globalCheck (s.partG g) va n .write m = .ok pa →
          (cp = .own ∧ 32 ≤ s.outstanding g) ∨ s.grantPending g pa n = true → s.Waits g j s))
    (srcCodeNoHold d = true → s.Sources g 4 [d] [x] →
      (ready near 256 → stored (.stg d b cp i) near 256 x.toNat) ∧ (ready base 256 → stored (.stgp d b cp i) base 256 x.toNat ∧ next) ∧
      refused (.stg d b cp i) near 256 ∧ refused (.stgp d b cp i) base 256) ∧
    (ready small z → stored (.stgs d b cp sz off) small z (s.S g d).toNat) ∧ refused (.stgs d b cp sz off) small z

/-- R140, R323: a global atomic on a word its page lets it change: performed in place where the context holds the word registered under
OWN, its old value to land; else a request with its function and operands goes to the home. Its destination is busy. -/
def Obligations.GlobalAtomicsIssue : Prop :=
  ∀ (s : State) (g : Nat), s.Solo g → (s.ctx g).regs.step = false → (s.ctx g).regs.loops = [] →
    ∀ (fn : AtomFn) (w64 : Bool) (cp : Pol) (d b : BitVec 6) (m : Option PageMap) (pa : Nat), atomOk fn w64 d = true →
    let k := g / 4
    let va := s.S g b
    let n := if w64 then 8 else 4
    let v := (s.S g d).toNat % 2 ^ (8 * n)
    let new := if fn = .cas then (s.S g (d + 1)).toNat % 2 ^ (8 * n) else 0
    let own := (s.ctx g).owned
    let held (i : Nat) : Prop := (Tab.get none own (pa + i)).isSome = true ∧ s.writePending k (pa + i) = false ∧
      ∀ a, a / 4 = (pa + i) / 4 → Tab.get none (s.core k).unpub a = none
    let old := bytesNat ((List.range n).map fun i => ((Tab.get none own (pa + i)).map fun o => o.val).getD 0)
    s.tlbAt k va = some m → s.globalCheck (s.partG g) va n .atomic m = .ok pa → s.outstanding g < 32 →
    s.grantPending g pa n = false → canonical va = true → va.toNat % n = 0 →
      ∃ u, exec (.atom fn w64 cp d b) s = .next u ∧ u.mem = s.mem ∧ (u.ctx g).regs.pc = s.pc g + 32 ∧
        (d ≠ 0 → (u.ctx g).isBusy (sKey d.toNat) = true) ∧
        (((s.env g 4).policy va cp ≠ .own ∨ ∃ i < n, Tab.get none own (pa + i) = none) →
          ∃ r ∈ u.reqs, r.g = g ∧ r.kind = (if (s.env g 4).policy va cp = .own then .own else .atom) ∧ r.line = pa / 128 ∧ r.off = pa % 128 ∧
            r.fn = fn ∧ r.w64 = w64 ∧ r.v = BitVec.ofNat 64 v ∧ r.new = BitVec.ofNat 64 new ∧ r.atomic = true) ∧
        ((s.env g 4).policy va cp = .own → (∀ i < n, held i) →
          (∀ i < n, Tab.get none (u.ctx g).owned (pa + i) = some ⟨BitVec.ofNat 8 (atomVal fn (8 * n) old v new / 256 ^ i), s.tagOf g⟩) ∧
          ∃ l, u.loads = s.loads ++ [l] ∧ l.g = g ∧ l.dest = sKey d.toNat ∧ l.asked = 0 ∧ l.value = old)

/-- R145: claims of banks and tiles wait until no one else holds them, and no bank of the mask moves, and are then recorded; a release of
tiles waits for what is in flight on them, and gives up only what the context's launch, or the context, holds. Mask bits above the field
raise ILLEGAL_OPERAND, a bank that is not scratchpad ACCESS. -/
def Obligations.ClaimsAndReleases : Prop :=
  ∀ (s : State) (g : Nat), s.Solo g → ∀ (mask : BitVec 6) (l : Nat), (s.ctx g).launch = some l →
    let v := s.S g mask
    let x := s.core (g / 4)
    let bits (n : Nat) := (List.range n).filter fun i => v.getLsbD i
    (v.toNat < 2 ^ 32 → (∀ b ∈ bits 32, b < 4 * x.split ∧ x.moving.getLsbD b = false ∧ ∀ o, Tab.get none x.banks b = some o → o.1 = l) →
      s.Runs g (.claimb mask) fun t => t.updCore (g / 4) fun c =>
        { c with banks := (bits 32).foldl (fun t b => Tab.set none t b (some (l, g % 4))) c.banks }) ∧
    (v.toNat < 2 ^ 12 → (∀ t ∈ bits 12, ∀ o, Tab.get none x.tOwner t = some o → o = g % 4) →
      s.Runs g (.claimt mask) fun t => t.updCore (g / 4) fun c =>
        { c with tOwner := (bits 12).foldl (fun t i => Tab.set none t i (some (g % 4))) c.tOwner }) ∧
    (2 ^ 32 ≤ v.toNat → s.Traps g (.claimb mask) ((s.env g 4).trap .illegalOperand) ∧ s.Traps g (.relb mask) ((s.env g 4).trap .illegalOperand)) ∧
    (2 ^ 12 ≤ v.toNat → s.Traps g (.claimt mask) ((s.env g 4).trap .illegalOperand) ∧ s.Traps g (.relt mask) ((s.env g 4).trap .illegalOperand)) ∧
    (v.toNat < 2 ^ 32 → (∃ b ∈ bits 32, 4 * x.split ≤ b) → s.Traps g (.claimb mask) ((s.env g 4).trap .access)) ∧
    (v.toNat < 2 ^ 32 → (∀ b ∈ bits 32, b < 4 * x.split) →
      (∃ b ∈ bits 32, x.moving.getLsbD b = true ∨ ∃ o, Tab.get none x.banks b = some o ∧ o.1 ≠ l) → s.Waits g (.claimb mask) s) ∧
    (v.toNat < 2 ^ 12 → (∃ t ∈ bits 12, ∃ o, Tab.get none x.tOwner t = some o ∧ o ≠ g % 4) → s.Waits g (.claimt mask) s) ∧
    (v.toNat < 2 ^ 12 → (∃ t ∈ bits 12, x.tileBusy t = true) → s.Waits g (.relt mask) s) ∧
    (v.toNat < 2 ^ 32 → s.Runs g (.relb mask) fun t => t.updCore (g / 4) fun c =>
      { c with banks := Tab.keep (fun b o => !(v.getLsbD b && o.any fun o => o.1 == l)) c.banks }) ∧
    (v.toNat < 2 ^ 12 → (∀ t ∈ bits 12, x.tileBusy t = false) → s.Runs g (.relt mask) fun t => t.updCore (g / 4) fun c =>
      { c with tOwner := Tab.keep (fun t o => !(v.getLsbD t && o == some (g % 4))) c.tOwner })

/-- R142, R325: an acquire discards the core's SI copies within its scope once no load or atomic of the context is outstanding; a
release waits, publishing, until nothing of the core is unpublished or unacknowledged in range, and then does nothing more; an acqrel is
a latency fence at every scope (R84, R91).
R143, R144: PUBL of a range of which nothing is unpublished or unacknowledged does nothing, one of a range with unpublished bytes
waits, publishing them; INVL discards the core's SI copies of the range; a length above 2^40 is illegal for both; PRFG asks the
homes for lines of its range alone, and memory does not change. -/
def Obligations.FencesAndRanges : Prop :=
  ∀ (s : State) (g : Nat), s.Solo g →
  (∀ scope : BitVec 3,
    let n := scope.toNat
    let pub := s.publish (g / 4) fun a _ => s.inRange (s.partG g) n a
    (s.drained g n → s.Runs g (.fenceAcq scope) fun t => t.acquire (g / 4) n) ∧
    (s.released (g / 4) n = true →
      s.Runs g (.fenceRel scope) id ∧ (s.drained g n → s.Runs g (.fenceAcqrel scope) (fun t => t.acquire (g / 4) n) true)) ∧
    (s.released (g / 4) n = false → s.Waits g (.fenceRel scope) pub ∧ s.Waits g (.fenceAcqrel scope) pub)) ∧
  (∀ (len base : BitVec 6) (cp : Pol) (i : BitVec 8),
    let k := g / 4
    let n := s.S g len
    let a := s.S g base + BitVec.ofInt 64 (i.toInt * 128)
    let r := if n = 0 then (0, 0) else (a.toNat / 128, (a.toNat + n.toNat - 1) / 128 - a.toNat / 128 + 1)
    let hit (pa : Nat) : Bool := s.inVirtRange (s.partG g) r pa
    let clear : Prop := (∀ u ∈ (s.core k).unpub, hit u.1 = false) ∧ ∀ q ∈ s.reqs, q.g / 4 = k → q.isWrite = true → hit (q.line * 128) = false
    (n.toNat ≤ 2 ^ 40 →
      (clear → s.Runs g (.publ len base i) id) ∧
      (¬clear → s.Waits g (.publ len base i) (s.publish k fun pa _ => hit pa)) ∧
      s.Runs g (.invl len base i) fun t => t.updCore k fun c => { c with siLines := Tab.keep (fun line _ => !hit (line * 128)) c.siLines }) ∧
    (2 ^ 40 < n.toNat →
      s.Traps g (.publ len base i) ((s.env g 4).trap .illegalOperand) ∧ s.Traps g (.invl len base i) ((s.env g 4).trap .illegalOperand)) ∧
    ((s.ctx g).regs.step = false →
      ∃ u, exec (.prfg len base cp i) s = .next u ∧ u.mem = s.mem ∧ (u.ctx g).regs.s = (s.ctx g).regs.s ∧ ∃ new, u.reqs = s.reqs ++ new ∧
        ∀ q ∈ new, q.g = g ∧ q.isWrite = false ∧
          ∃ j < (if n.toNat ≤ 2 ^ 20 then r.2 else 8193), ∃ pa, s.reaches g (BitVec.ofNat 64 ((r.1 + j) * 128)) 1 .read pa ∧ q.line = pa / 128))

/-! ### The array slot -/

/-- R162, R170: TDESC of a record that stands makes it the context's tile descriptor td, one that does not stand raises
ILLEGAL_OPERAND; CPAT takes s(a)[31:0] as the context's pattern register, at once, with no other effect. -/
def Obligations.DescriptorsAndPattern : Prop :=
  ∀ (s : State) (g : Nat), s.Solo g → ∀ (td : BitVec 4) (sa : BitVec 6),
    let d := BitVec.ofNat 512 (Mem.readN (s.core (g / 4)).ram (s.S g sa).toNat 64)
    (s.localCheck g (s.S g sa) 64 64 = none →
      (tdOk d = true → s.Runs g (.tdesc td sa) fun t => t.updCtx g fun c => { c with td := Tab.set 0 c.td td.toNat d }) ∧
      (tdOk d = false → s.Traps g (.tdesc td sa) ((s.env g 5).trap .illegalOperand))) ∧
    s.Runs g (.cpat sa) fun t => t.updCtx g fun c => { c with cpat := (s.S g sa).setWidth 32 }

/-- R159, R163, R168, R169, R172 to R175, R178: MMA, MMAP, MZERO, MDRAIN and the eight MBOOM operations, with room in the queue, on
tiles of the context and operands that stand: each joins its core's queue with what it captured. A tile of another, or of none,
raises ACCESS. -/
def Obligations.ArrayOperationsJoinTheQueue : Prop :=
  ∀ (s : State) (g : Nat), s.Solo g → (s.core (g / 4)).halyard.length < 16 →
    ∀ (tile ta tb cnt : BitVec 4) (op : CellOp) (z ck stat : Bool) (f : XFmt) (sa : BitVec 6) (codec : BitVec 2),
    tile.toNat + cnt.toNat ≤ 11 → tile.toNat / 6 = (tile.toNat + cnt.toNat) / 6 →
    let n := cnt.toNat + 1
    let a := Tab.get 0 (s.ctx g).td ta.toNat
    let b := Tab.get 0 (s.ctx g).td tb.toNat
    let pattern : BitVec 32 := match op with
      | .madd => 0
      | .abda => 0x55555555
      | .sqda => 0xAAAAAAAA
      | .maxp => 0xFFFFFFFF
    let int (i : Nat) := ((s.core (g / 4)).projected (g % 4)).int.getLsbD (tile.toNat + i)
    let zeroInt (i : Nat) := ((s.core (g / 4)).projected (g % 4)).zeroInt.getLsbD (tile.toNat + i)
    let addr := s.S g sa
    let entry : HEntry := { id := 0, c := 0, op := 0, tile := tile.toNat, cnt := n }
    let inRam (len : Nat) : Prop := s.localCheck g addr 256 len = none
    let matched : Prop := tdKind a = 1 ∧ tdKind b = 2 ∧ tdK a = tdK b ∧ (tdFmt a = .i8 ↔ tdFmt b = .i8) ∧
      64 * (tile.toNat % 6) ≤ tdCol b ∧ tdCol b + tdCols b ≤ 64 * (tile.toNat % 6 + n) ∧
      ∀ r ∈ tdRanges a, s.localCheck g (BitVec.ofNat 64 r.1) 1 r.2 = none
    let noAccess := (s.env g 5).trap .access
    (s.ownsTiles g tile.toNat n false →
      (matched → (ck = true → op = .madd) →
        s.Runs g (.mma tile ta tb op cnt z ck) (s.enters g { entry with op := 2, ta := a, tb := b, pat := pattern, z := z, ck := ck })) ∧
      (matched → (ck = true → (s.ctx g).cpat = 0) →
        s.Runs g (.mmap tile ta tb cnt z ck) (s.enters g { entry with op := 3, ta := a, tb := b, pat := (s.ctx g).cpat, z := z, ck := ck })) ∧
      s.Runs g (.mzero tile cnt) (s.enters g { entry with op := 5 }) ∧
      ((∀ i < n, drainTarget f (int i) = true ∧ (ck = true → int i = zeroInt i)) → (codec ≠ 0 → f ≠ .fp32 ∧ f ≠ .i32) →
        inRam (drainLen f codec.toNat n) →
        s.Runs g (.mdrain tile f sa cnt codec stat ck)
          (s.enters g { entry with op := 6, addr := addr.toNat, fmt := xfmtNum f, codec := codec.toNat, stat := stat, ck := ck })) ∧
      ((∀ i < n, int i = false) →
        (inRam 1024 →
          s.Runs g (.mboomRmax tile sa cnt) (s.enters g { entry with op := 7, sub := 0, addr := addr.toNat }) ∧
          s.Runs g (.mboomRsum tile sa cnt) (s.enters g { entry with op := 7, sub := 1, addr := addr.toNat }) ∧
          s.Runs g (.mboomRscale tile sa cnt) (s.enters g { entry with op := 7, sub := 2, addr := addr.toNat })) ∧
        (inRam (256 * n) → s.Runs g (.mboomCscale tile sa cnt) (s.enters g { entry with op := 7, sub := 3, addr := addr.toNat })))) ∧
    (s.ownsTiles g tile.toNat n true → (∀ i < n, int i = false) →
      (inRam 4 → s.Runs g (.mboomSexp tile sa cnt) (s.enters g { entry with op := 7, sub := 4, addr := addr.toNat })) ∧
      s.Runs g (.mboomNorm tile cnt) (s.enters g { entry with op := 7, sub := 5 }) ∧
      s.Runs g (.mboomCzero tile cnt) (s.enters g { entry with op := 7, sub := 6 }) ∧
      (inRam 256 → s.Runs g (.mboomRstat tile sa cnt) (s.enters g { entry with op := 7, sub := 7, addr := addr.toNat }))) ∧
    (¬s.ownsTiles g tile.toNat n false →
      ∀ i ∈ [.mma tile ta tb op cnt z ck, .mmap tile ta tb cnt z ck, .mzero tile cnt, .mdrain tile f sa cnt codec stat ck, .mboomRmax tile sa cnt,
        .mboomRsum tile sa cnt, .mboomRscale tile sa cnt, .mboomCscale tile sa cnt, .mboomSexp tile sa cnt, .mboomNorm tile cnt, .mboomCzero tile cnt,
        .mboomRstat tile sa cnt], s.Traps g i noAccess)

/-- R179 to R181, R186, R187: ATTN with a live handle, a layer and head of the store, a query of its width and tiles for it joins the
queue with its handle and range; ACARRY carries a row out to a destination busy from then on, or in from a source; MSTAT's
register is busy until the entry runs. With the queue full each waits. -/
def Obligations.AttentionCarryAndStatus : Prop :=
  ∀ (s : State) (g : Nat), s.Solo g →
    ∀ (tile tq item : BitVec 4) (sh sr sa row : BitVec 6) (l : Bool) (j : BitVec 2) (st : Nat) (t : Store) (seq : Nat) (v : Row),
    let q := Tab.get 0 (s.ctx g).td tq.toNat
    let r := (s.S g sr).toNat
    let dest := (s.env g 5).dst row
    let busy (key : Nat) (u : State) := u.updCtx g fun c => { c with busy := Tab.set 0 c.busy key 1 }
    ((s.core (g / 4)).halyard.length < 16 →
      (tile = 0 ∨ tile = 6 → r / 2 ^ 48 % 4 = 0 → (s.S g sh).toNat < 2 ^ 32 → tdKind q = 3 →
        s.handle (s.partG g) (s.S g sh).toNat = some (st, t, seq) → r / 2 ^ 56 < t.L → r / 2 ^ 50 % 64 < t.H → tdK q = t.D →
        s.ownsTiles g tile.toNat (ceilDiv t.D 64 + 1) true → (∀ x ∈ tdRanges q, s.localCheck g (BitVec.ofNat 64 x.1) 1 x.2 = none) →
        s.Runs g (.attn tile tq sh sr) (s.enters g { id := 0, c := 0, op := 8, tile := tile.toNat, cnt := ceilDiv t.D 64 + 1, ta := q
                                                     hnd := s.S g sh, range := s.S g sr, pi0 := r / 2 ^ 23 % 2 ^ 23 / t.T
                                                     gen := (s.S g sh).toNat % 64 }) true) ∧
      (tile.toNat ≤ 11 → s.ownsTiles g tile.toNat 1 true →
        (dstCode row = true → s.Runs g (.acarryExp tile l j row) fun u =>
          s.enters g { id := 0, c := 0, op := 9, sub := 0, tile := tile.toNat, z := l, cnt := j.toNat, dest := dest } (busy (rowKey dest) u)) ∧
        (srcCodeNoHold row = true → s.Sources g 5 [row] [v] → s.Runs g (.acarryImp tile l j row)
          (s.enters g { id := 0, c := 0, op := 9, sub := 1, tile := tile.toNat, z := l, cnt := j.toNat, row := v }))) ∧
      (item.toNat ≤ 9 → s.Runs g (.mstat sa item) fun u => s.enters g { id := 0, c := 0, op := 10, sub := item.toNat, dest := sa.toNat }
        (if sa = 0 then u else busy (sKey sa.toNat) u))) ∧
    (16 ≤ (s.core (g / 4)).halyard.length →
      (tile = 0 ∨ tile = 6 → s.Waits g (.attn tile tq sh sr) s) ∧ (item.toNat ≤ 9 → s.Waits g (.mstat sa item) s) ∧
      (tile.toNat ≤ 11 → (dstCode row = true → s.Waits g (.acarryExp tile l j row) s) ∧
        (srcCodeNoHold row = true → s.queuesFull g [row] → s.Waits g (.acarryImp tile l j row) s)))

/-! ### The engine slot -/

/-- R191 to R193, R199 to R202: COPY, GATH and SCAT of a record that stands, its ranges in the scratchpad owned, its completion object
ready, with room in the engine queue: the record as it is now is handed over with the object it completes.
R204 to R206: PUT and GET through a registered import that holds the range, up or not, and COLL over the members of its scope, are
handed over with their record; without such an import PUT and GET raise WINDOW. That address 0 names no completion object, that run and
index lists have alignment 1 and how much of the scratchpad an expanding copy takes are the model's reading (log entries 44 and 81). -/
def Obligations.CopiesTransfersAndCollectives : Prop :=
  ∀ (s : State) (g : Nat), s.Solo g → s.engineRoom g → ∀ (sa : BitVec 6), s.localCheck g (s.S g sa) 64 64 = none →
  (∀ ch : BitVec 4,
    let ram := (s.core (g / 4)).ram
    let r := Mem.readBytes ram (s.S g sa).toNat 64
    let inRam (a n : Nat) : Prop := s.localCheck g (BitVec.ofNat 64 a) 1 n = none
    let len := recN r 24 4
    let c (op : Nat) : EngCmd := { s.cmd g op with record := r, imm := ch.toNat, scope := recN r 5 1 }
    let stands (op : Nat) : Prop := (c op).copyOk ram (fun k => s.inPart (s.partG g) (k / 4)) = true ∧
      (recN r 0 1 = 1 → ∀ x ∈ (c op).runs ram, inRam x.1 (if recN r 3 1 = 1 then expandSpan ram (len / 256) x.1 else len)) ∧
      (op ≠ 1 → inRam (recN r 36 8) (recN r 28 4 * (if recN r 48 1 = 0 then 4 else 8))) ∧
      (recN r 1 1 = 1 → ∀ k ∈ (c op).targets (g / 4), ∀ x ∈ (c op).runs ram, s.localCheckOn g k (BitVec.ofNat 64 x.2) 1 len = none)
    let sent (op : Nat) := State.sends g { c op with comp := object (recN r 56 8) }
    s.objectReady g (recN r 56 8) →
      (stands 1 → s.Runs g (.copy sa ch) (sent 1)) ∧ (stands 2 → s.Runs g (.gath sa ch) (sent 2)) ∧
      (stands 3 → s.Runs g (.scat sa ch) (sent 3))) ∧
  (∀ (win : BitVec 10) (u : Machine.Unit),
    let r := Mem.readBytes (s.core (g / 4)).ram (s.S g sa).toNat 64
    let f := recN r
    let c (op : Nat) : EngCmd := { s.cmd g op with record := r, comp := object (f 32 8) }
    let import_ := Tab.get none (s.part (s.partG g)).pod win.toNat
    let holds : Prop := ∃ w, import_ = some w ∧ w.imp = true ∧ f 16 8 + f 24 8 ≤ w.length
    let members := if f 2 1 = 2 then s.quadCount g else s.barCount (g / 4) (f 2 1) (f 3 1)
    s.objectReady g (f 32 8) → f 40 24 = 0 →
      (f 0 1 ≤ 1 → f 1 1 ≤ 1 → f 2 6 = 0 → 1 ≤ f 24 8 → f 24 8 ≤ 2 ^ 32 →
        (holds → (f 0 1 = 1 → s.localCheck g (BitVec.ofNat 64 (f 8 8)) 1 (f 24 8) = none) →
          s.Runs g (.put sa win) (State.sends g { c 4 with imm := win.toNat, scope := 6 }) ∧
          s.Runs g (.get sa win) (State.sends g { c 5 with imm := win.toNat, scope := 6 })) ∧
        (¬holds → s.Traps g (.put sa win) ((s.env g 7).trap .window) ∧ s.Traps g (.get sa win) ((s.env g 7).trap .window))) ∧
      (f 0 1 ≤ 2 → f 1 1 ∈ [0, 1, 3, 6] → f 2 1 ∈ [2, 3, 4] → f 3 1 ≤ 127 → f 4 4 < members → 1 ≤ f 8 8 → f 8 8 ≤ 2 ^ 28 → (s.ctx g).unit = some u →
        s.Runs g (.coll sa) (State.sends g { c 6 with scope := f 2 1, b := BitVec.ofNat 64 members, units := [(u.launch, u.gang)] })))

/-- R207, R210, R213 to R216: SIGNAL of a word that may be changed, LAUNCH of a record that may be read, TRIG of the units in hand, HIST
with its ids, HLATCH, TOPK and TOPKR of records that stand are handed over; a HIST of no ids does nothing. That address 0 names no completion
object, that scores have alignment 1, that HIST's ids are those at issue and the k that TOPKR's range is checked with are the model's reading
(log entries 44, 81, 64 and 60). -/
def Obligations.SignalsLaunchesAndSelectors : Prop :=
  ∀ (s : State) (g : Nat), s.Solo g → s.engineRoom g → ∀ (sa sb : BitVec 6) (scope : BitVec 3) (pa : Nat),
    let ram := (s.core (g / 4)).ram
    let x := s.S g sa
    let r := Mem.readBytes ram x.toNat 64
    let f := recN r
    let n := (s.S g sb).toNat % 2 ^ 32
    let inRam (a align n : Nat) : Prop := s.localCheck g (BitVec.ofNat 64 a) align n = none
    let c (op : Nat) : EngCmd := s.cmd g op
    let us := if (s.ctx g).acts = none then (s.ctx g).unit.toList else (s.ctx g).taken
    (1 ≤ scope.toNat → scope.toNat ≤ 6 → s.reaches g x 8 .atomic pa →
      s.Runs g (.signal sa sb scope) (State.sends g { c 7 with a := x, b := s.S g sb, scope := scope.toNat })) ∧
    (s.reaches g x 128 .read pa → s.Runs g (.launch sa) (State.sends g { c 9 with a := x, scope := 4 })) ∧
    (∀ i l, (s.ctx g).writer = some i → s.launches[i]? = some l →
      s.Runs g .trig (State.sends g { c 11 with units := us.map fun u => (u.launch, u.index), scope := l.scope })) ∧
    ((s.S g sb).toNat < 2 ^ 36 → n ≤ 2 ^ 20 →
      (n = 0 → s.Runs g (.hist sa sb) id) ∧
      (n ≠ 0 → inRam x.toNat 1 n → s.Runs g (.hist sa sb) (State.sends g { c 12 with b := s.S g sb, record := Mem.readBytes ram x.toNat n }))) ∧
    (s.localCheck g x 64 64 = none →
      (f 0 1 ≤ 15 → f 1 1 ≤ 2 → 1 ≤ f 2 2 → f 2 2 ≤ 256 → 1 ≤ f 4 4 → f 4 4 ≤ 65536 → f 28 4 = 0 → f 48 16 = 0 → s.objectReady g (f 32 8) →
        s.Runs g (.hlatch sa) (State.sends g { c 13 with record := r, comp := object (f 32 8) })) ∧
      (f 0 1 ≤ 7 → f 1 1 ≤ 7 → ((f 1 1).testBit 0 = true → 1 ≤ f 2 2 ∧ f 2 2 ≤ 1024) → 1 ≤ f 4 4 → f 4 4 ≤ 2 ^ 20 → f 32 32 = 0 →
        inRam (f 8 8) 1 (4 * f 4 4) → ((f 1 1).testBit 2 = true → inRam (f 16 8) 1 (8 * f 4 4)) → s.objectReady g (f 24 8) →
        s.Runs g (.topk sa) (State.sends g { c 14 with record := r, comp := object (f 24 8) })) ∧
      (f 0 1 ≤ 7 → f 1 7 = 0 → f 24 40 = 0 → inRam (f 8 8) 16 (16 + 16 * s.topkK g (f 0 1)) → s.objectReady g (f 16 8) →
        s.Runs g (.topkr sa) (State.sends g { c 15 with record := r, comp := object (f 16 8) })))

/-- R208, R209, R212: a BAR whose release is complete arrives and waits; once its round is complete it acquires and issues, its arrival
spent; one that names a barrier of no count is illegal. A TAKE with no units in hand is served from the launch whose units it may take: the units are
the context's, the launch's next unit and count go to its registers and wu; with none to take it waits. -/
def Obligations.BarriersAndTakes : Prop :=
  ∀ (s : State) (g : Nat), s.Solo g → ∀ (scope : BitVec 3) (id : BitVec 7) (sa sb : BitVec 6) (max : BitVec 10) (i : Nat) (l : Launch),
    let n := scope.toNat
    let order := if n = 7 then 6 else n
    let got := min max.toNat (l.total - l.next)
    (n ∈ [1, 2, 3, 4, 7] →
      ((n < 3 ∨ s.barCount (g / 4) n id.toNat ≠ 0) →
        ((s.ctx g).arrived = some (n, id.toNat) → (s.ctx g).released = true → s.drained g order →
          exec (.bar scope id) s =
            .next (s.issue g (fun t => (t.acquire (g / 4) order).updCtx g fun c => { c with arrived := none, released := false }) true)) ∧
        ((s.ctx g).arrived ≠ some (n, id.toNat) → s.released (g / 4) order = true →
          s.Waits g (.bar scope id) (s.arrive g n id.toNat)) ∧
        ((s.ctx g).arrived = some (n, id.toNat) → (s.ctx g).released = false → s.Waits g (.bar scope id) s)) ∧
      (3 ≤ n → s.barCount (g / 4) n id.toNat = 0 → s.Traps g (.bar scope id) ((s.env g 7).trap .illegalOperand))) ∧
    (max ≠ 0 → (s.ctx g).taken = [] →
      (s.takeLaunch (g / 4) = some i → s.launches[i]? = some l →
        exec (.take sa sb max) s = .next (s.issue g (fun t =>
          State.answers g sa (BitVec.ofNat 64 l.next)
            (((t.updLaunch i fun l => { l with next := l.next + got, stage := .running }).coWrite i).updCtx g fun c =>
              { c with taken := (List.range got).map (fun j => ⟨i, l.next + j, 0, false⟩), acts := some i })
            [(sKey sb.toNat, BitVec.ofNat 64 (l.key * 2 ^ 32 + got))] (State.wuOf l l.next)) true)) ∧
      (s.takeLaunch (g / 4) = none → s.Waits g (.take sa sb max) s))

/-- R217, R276 to R279, R282: KVAPP of an entry within its store with room in the journal, KVPF and KVLEND are handed over; KVSYNC issues
once none of the context's entries waits and the release at its scope is complete; KVRSV answers its pair with whether the launch
has the blocks. A dead handle raises KV_FAULT reason 1, a layer or position past the end reason 2. That address 0 names no completion object and
that K and V have alignment 1 is the model's reading (log entries 44 and 81). -/
def Obligations.KvAppendsSyncsAndRequests : Prop :=
  ∀ (s : State) (g : Nat), s.Solo g → ∀ (sa sb : BitVec 6) (scope pair : BitVec 3) (id slot : Nat) (t : Store) (w : PodWindow),
    let ram := (s.core (g / 4)).ram
    let x := s.S g sa
    let r := Mem.readBytes ram (s.S g sb).toNat 32
    let fl := recN r 24 1
    let bare : Prop := fl.testBit 1 = true ∨ fl.testBit 2 = true
    let inRam (a n : Nat) : Prop := s.localCheck g (BitVec.ofNat 64 a) 1 n = none
    let entry (data : List Byte) : EngCmd := { s.cmd g 16 with a := x, imm := t.entrySize, record := r ++ data }
    let lend := Mem.readBytes ram x.toNat 32
    let of_ := BitVec.ofNat 64 (recN lend 0 4)
    let fault (n : Nat) : Trap := { (s.env g 7).trap .kvFault x with reason := n }
    (x.toNat < 2 ^ 32 →
      (s.handle (s.partG g) x.toNat = none →
        s.Traps g (.kvapp sa sb) (fault 1) ∧ s.Traps g (.kvpf sa sb) (fault 1) ∧ s.Traps g (.kvfree sa) (fault 1)) ∧
      (s.handle (s.partG g) x.toNat = some (id, t, slot) →
        s.Runs g (.kvpf sa sb) (State.sends g { s.cmd g 22 with a := x, b := s.S g sb }) true ∧
        ((s.core (g / 4)).journalUsed + t.entrySize ≤ 524288 → s.appsWaiting g = false → s.localCheck g (s.S g sb) 32 32 = none →
          recN r 1 3 = 0 → recN r 25 7 = 0 → fl ≤ 7 → ¬(fl.testBit 1 = true ∧ fl.testBit 2 = true) →
          (bare → fl.testBit 0 = false ∧ recN r 0 1 = 0 ∧ recN r 8 8 = 0 ∧ recN r 16 8 = 0) →
          (recN r 0 1 < t.L → recN r 4 4 < s.seqN (s.partG g) t slot 36 4 * t.T →
            (bare → s.Runs g (.kvapp sa sb) (State.sends g (entry [])) true) ∧
            (¬bare → inRam (recN r 8 8) t.runBytes → inRam (recN r 16 8) t.runBytes → s.Runs g (.kvapp sa sb) (State.sends g (entry
              (Mem.readBytes ram (recN r 8 8) t.runBytes ++ Mem.readBytes ram (recN r 16 8) t.runBytes))) true)) ∧
          (t.L ≤ recN r 0 1 ∨ s.seqN (s.partG g) t slot 36 4 * t.T ≤ recN r 4 4 → s.Traps g (.kvapp sa sb) (fault 2))))) ∧
    (1 ≤ scope.toNat → scope.toNat ≤ 4 → (∀ j ∈ (s.core (g / 4)).journal, j.g ≠ g) → s.appsWaiting g = false → (s.ctx g).dropped = none →
      s.released (g / 4) scope.toNat = true → s.Runs g (.kvsync scope) (fun u => u)) ∧
    (s.localCheck g x 32 32 = none → recN lend 12 4 = 0 → recN lend 24 8 = 0 → s.handle (s.partG g) (recN lend 0 4) = some (id, t, slot) →
      recN lend 4 4 < s.seqN (s.partG g) t slot 12 4 → Tab.get none (s.part (s.partG g)).pod (recN lend 8 2) = some w → w.imp = true →
      w.chip = recN lend 10 2 → s.engineRoom g → s.objectReady g (recN lend 16 8) →
      s.Runs g (.kvlend sa) (State.sends g { s.cmd g 24 with a := of_, record := lend, comp := object (recN lend 16 8) }) true) ∧
    (pair ≠ 0 → x.toNat < 2 ^ 38 → s.storeOf (s.partG g) (x.toNat / 2 ^ 32) = some t →
      let n := x.toNat % 2 ^ 32
      (n = 0 → s.Runs g (.kvrsv sa pair) (s.givesPair g 7 2 pair true) true) ∧
      (∀ l, (s.ctx g).launch = some l → n ≠ 0 →
        (t.top 0 - t.reserved < n + t.n 20 4 → s.Runs g (.kvrsv sa pair) (s.givesPair g 7 2 pair false) true) ∧
        (n + t.n 20 4 ≤ t.top 0 - t.reserved → (∀ e ∈ t.rsv, e.1 ≠ l) → t.rsv.length < 128 →
          s.Runs g (.kvrsv sa pair) (fun u => s.givesPair g 7 2 pair true
            (u.updStore (s.partG g) (x.toNat / 2 ^ 32) fun t => { t with rsv := t.rsv ++ [(l, n)] })) true)))

/-- R217, R265, R266, R281, R283: the instructions on sequences, each of a live handle: KVFORK answers the new handle, KVFREE, KVTRIM,
KVCMPT and KVDEM change the store, KVQRY answers the item; a trim past the length or a page past the table raises KV_FAULT
reason 2, a compaction or demotion without the blocks it needs reason 4.
R272 to R274, R281, R283: what each does to the store, commit by commit. A fork of a source with pages above the new slot's reach, or of a
block whose count would pass 65 535, or with no slot left answers 0 and changes nothing; else it takes the slot on top, gives it the source's
class, counts one holder more for every block, copies entries and masks, masks cleared from the committed length on, and sets lengths and
page count with live. A free clears live and the lengths and advances the generation, from 63 to 1, in one commit; then every entry is
cleared, then every block loses a holder, and the slot is pushed. A trim sets the lengths, with the fill and mask of the page it cuts, in one
commit, clears later mask bits, entries from the new page count on, whose blocks lose a holder. A compaction with no hole changes nothing; else
its blocks are all allocated, pages rewritten one at a time from that of the first hole, the lengths lowered by the holes below them, the old
blocks dropped. A demotion that applies copies the block into one of the lower format, which takes its holders over; else it changes nothing.
A holder fewer lowers the count, or releases the block when it was the last. -/
def Obligations.KvSequences : Prop :=
  (∀ (s : State) (g : Nat), s.Solo g → ∀ (sa sb : BitVec 6) (mx : Bool) (item : BitVec 3) (id slot : Nat) (t : Store),
    let p := s.partG g
    let live (v : Word) : Prop := v.toNat < 2 ^ 32 ∧ s.handle p v.toNat = some (id, t, slot)
    let n := (s.S g sb).toNat
    let q := s.seqN p t slot
    let fault (r : Nat) : Trap := { (s.env g 7).trap .kvFault (s.S g sa) with reason := r }
    let moved (b : Bool) := s.updCtx g (Ctx.moveOn b)
    let w : Writer := { tag := s.tagOf g, p := p }
    let compact (u : State) := u.kvCompact w id t slot (s.ctx g).launch
    let demote (u : State) := u.kvDemote w id t slot n (if mx then 2 else 1)
    (live (s.S g sb) →
      s.Runs g (.kvfork sa sb) (fun u => State.answers g sa (BitVec.ofNat 64 (u.kvFork w id t (some slot)).2) (u.kvFork w id t (some slot)).1) true ∧
      s.Runs g (.kvqry sa sb item) (State.answers g sa (BitVec.ofNat 64 (match item.toNat with
        | 0 => q 4 4
        | 1 => q 8 4
        | 2 => q 12 4
        | 3 => q 0 1 % 64
        | 4 => q 2 1
        | 5 => q 32 4
        | 6 => t.top 0
        | _ => t.n 20 4))) true) ∧
    (live (s.S g sa) →
      s.Runs g (.kvfree sa) (fun u => u.kvFree w id t slot) true ∧
      (n ≤ q 8 4 → s.Runs g (.kvtrim sa sb) (fun u => u.kvTrim w id t slot n) true) ∧
      (q 8 4 < n → s.Traps g (.kvtrim sa sb) (fault 2)) ∧
      ((∀ b, (moved b).compactTrouble p t slot = none ∧ (compact (moved b)).isSome = true) → s.Runs g (.kvcmpt sa) (fun u => (compact u).getD u) true) ∧
      ((∀ b, (moved b).compactTrouble p t slot = none ∧ compact (moved b) = none) → s.Traps g (.kvcmpt sa) (fault 4)) ∧
      (n < q 12 4 → (∀ b, ((moved b).demoteOf p t slot n (if mx then 2 else 1)).bind ((moved b).blkTrouble p t) = none) →
        ((∀ b, (demote (moved b)).isSome = true) → s.Runs g (.kvdem sa sb mx) (fun u => (demote u).getD u) true) ∧
        ((∀ b, demote (moved b) = none) → s.Traps g (.kvdem sa sb mx) (fault 4))) ∧
      (q 12 4 ≤ n → s.Traps g (.kvdem sa sb mx) (fault 2)))) ∧
  (∀ (u : State) (w : Writer) (id slot n : Nat) (t : Store) (launch : Option Nat),
    let p := w.p
    let q := u.seqN p t slot
    let T := t.T
    let valid (tok : Nat) : Bool := (u.maskW p t slot (tok / T)).testBit (tok % T)
    let kept (pi m : Nat) : Nat := if q 4 4 ≤ T * pi then 0 else m % 2 ^ min T (q 4 4 - T * pi)
    let base (kind what : Nat) : Commit := { kind := kind, store := id, what := what, slot := slot }
    let blocks (lo hi : Nat) := (List.range (hi - lo)).filterMap fun i => u.heldBlk p t (u.pageE p t slot (lo + i))
    (let top := t.n 32 4
     let new := u.kvN p (t.n 24 8 + 4 * (top - 1)) 4 % 2 ^ 20
     let copies := (List.range (q 12 4)).map fun pi => (pi, u.pageE p t slot pi, u.maskW p t slot pi)
     let held := copies.filterMap fun e => u.heldBlk p t e.2.1
     (top = 0 ∨ (∃ b ∈ held, 65535 < u.refs p t b + (held.filter b.same).length) ∨ u.seqN p t new 36 4 < q 12 4 →
       u.kvFork w id t (some slot) = (u, 0)) ∧
     (top ≠ 0 → (∀ b ∈ held, u.refs p t b + (held.filter b.same).length ≤ 65535) → q 12 4 ≤ u.seqN p t new 36 4 →
       let popped := (u.updStore p id fun t => t.put 32 4 (top - 1)).seqPut w t new 2 1 (q 2 1)
       let counted := held.foldl (fun v b => v.commit w { base 4 32 with slot := new, up := b.ref }) popped
       let copied := (List.range (counted.seqN p t new 36 4)).foldl (fun v pi =>
         match copies.find? fun e => e.1 == pi with
         | some e => v.commit w { base 4 3 with slot := new, page := pi, entry := (if peValid e.2.1 then e.2.1 else 0), mask := kept pi e.2.2 }
         | none => if v.maskW p t new pi = 0 then v else v.commit w { base 4 2 with slot := new, page := pi }) counted
       let made := copied.commit w { base 4 136 with slot := new, committed := q 4 4, spec := q 4 4, pages := q 12 4 }
       u.kvFork w id t (some slot) = (made, id * 2 ^ 26 + new * 2 ^ 6 + made.seqN p t new 0 1 % 64))) ∧
    (let dead := u.commit w (base 5 136)
     let freed := dead.dropPages w 5 id t slot 0 (q 12 4)
     let top := match freed.storeOf p id with | some t => t.n 32 4 | none => 0
     u.kvFree w id t slot = (freed.kvPutN w (t.n 24 8 + 4 * top) 4 slot).updStore p id fun t => t.put 32 4 (top + 1)) ∧
    (let pages := min (q 12 4) (ceilDiv n T)
     let last := ceilDiv n T - 1
     let cut (pi : Nat) : Nat := u.maskW p t slot pi % 2 ^ (n - T * pi)
     let c : Commit := { base 6 8 with committed := min (q 4 4) n, spec := n, pages := pages }
     let short := u.commit w (if 0 < n ∧ last < pages then
       { c with what := 11, page := last, mask := cut last
                entry := withField (u.pageE p t slot last) 51 7 (min (peFill (u.pageE p t slot last)) (n - T * last)) } else c)
     let clear := (List.range (q 36 4)).foldl (fun (v : State) pi =>
       if n < T * (pi + 1) ∧ v.maskW p t slot pi ≠ cut pi then v.commit w { base 6 2 with page := pi, mask := cut pi } else v) short
     u.kvTrim w id t slot n = (clear.dropPages w 6 id t slot pages (q 12 4)).lendsLost p (u.handleOf p id t slot) pages) ∧
    ((∀ tok < q 8 4, valid tok = true) → u.kvCompact w id t slot launch = some u) ∧
    (∀ hole < q 8 4, valid hole = false → (∀ tok < hole, valid tok = true) →
      let p0 := hole / T
      let toks := ((List.range (q 8 4)).drop (T * p0)).filter valid
      let need := ceilDiv toks.length T
      let holes (n : Nat) := ((List.range n).filter fun tok => !valid tok).length
      let spec := q 8 4 - holes (q 8 4)
      (u.allocN w id launch (q 2 1) need = none → u.kvCompact w id t slot launch = none) ∧
      (∀ v bs, u.allocN w id launch (q 2 1) need = some (v, bs) →
        let moved := bs.zipIdx.foldl (fun v b => v.compactPage w id t slot u (p0 + b.2) ((toks.drop (T * b.2)).take T) b.1) v
        let cleared := (List.range (q 12 4 - (p0 + need))).foldl (fun (v : State) i => v.commit w { base 7 3 with page := p0 + need + i }) moved
        let short := cleared.commit w { base 8 8 with committed := q 4 4 - holes (q 4 4), spec := spec, pages := ceilDiv spec T }
        u.kvCompact w id t slot launch =
          some (((blocks p0 (q 12 4)).foldl (fun v b => v.commit w { base 8 16 with down := b.ref }) short).lendsLost p (u.handleOf p id t slot) p0))) ∧
    (∀ fmt, let v := u.endMoves w id
      (v.demoteOf p t slot n fmt = none → u.kvDemote w id t slot n fmt = some u) ∧
      (∀ b, v.demoteOf p t slot n fmt = some b →
        let got := v.popBlock w id fmt (field (v.meta0 p t b) 45 3)
        (got = none → u.kvDemote w id t slot n fmt = none) ∧
        (∀ x c, got = some (x, c) → u.kvDemote w id t slot n fmt = some (x.moveBlock w id b c)))) ∧
    (∀ lo hi kind, u.dropPages w kind id t slot lo hi =
      (blocks lo hi).foldl (fun v b => v.commit w { base kind 16 with down := b.ref })
        ((List.range (hi - lo)).foldl (fun v i => v.commit w { base kind 1 with page := lo + i }) u)) ∧
    (u.storeOf p id = some t → ∀ (b : Blk) (pi : Nat),
      let gen := u.seqN p t slot 0 1 % 64
      u.applyCommit w (base 5 136) = ((((u.seqPut w t slot 0 1 (if gen = 63 then 1 else gen + 1)).seqPut w t slot 1 1 0).seqPut w t slot 4 4 0).seqPut
        w t slot 8 4 0).seqPut w t slot 12 4 0 ∧
      u.applyCommit w { base 6 1 with page := pi } = u.putPage w t slot pi 0 ∧
      u.applyCommit w { base 6 2 with page := pi, mask := n } = u.putMask w t slot pi n ∧
      u.applyCommit w { base 5 16 with down := b.ref } = u.dropRef w id (t.blkOfRef b.ref) ∧
      u.dropRef w id b = (if u.refs p t b ≤ 1 then u.release w id b else u.putMeta w t b 48 16 (u.refs p t b - 1))))

/-- R198, R204, R219 to R221, R301: TIME and PERF answer the timebase and a counter; the services answer in s(a); WINREG
of a record that stands answers a free id, its window then as the record says, or all ones; QSEND puts a row of the scratchpad behind
its queue's rows, and waits while the queue holds eight. Cancelling a barrier releases every unit that waits at it with SOFT 0xB0. That a
barrier with a count and nobody waiting is not in use, so that its count may be set, is the model's choice (log entry 86). -/
def Obligations.TimeServicesAndQueues : Prop :=
  ∀ (s : State) (g : Nat), s.Solo g → ∀ (sa sb : BitVec 6) (ctr : BitVec 8) (svc : BitVec 10) (i : Nat) (pa : Nat),
    let v := s.S g sa
    let k := g / 4
    let p := s.partG g
    let answer (w : Word) := State.answers g sa w
    let sc := v.toNat / 2 ^ 56
    let id := v.toNat / 2 ^ 48 % 256
    let r := Mem.readBytes (s.core k).ram v.toNat 64
    s.Runs g (.time sa) (s.givesS g 7 1 sa s.timebase) ∧
    s.Runs g (.perf sa ctr) (s.givesS g 7 1 sa (match ctr.toNat with
      | 0 => (s.ctx g).perfSteps
      | 1 => (s.ctx g).perfIssue
      | 2 => (s.core k).perfFreeze
      | 3 => (s.ctx g).perfStall
      | 4 => (s.core k).perfSwitch
      | 5 => (s.core k).perfSlip
      | 6 => (s.ctx g).perfEng
      | 7 => (s.core k).perfCopy
      | _ => 0)) ∧
    s.Runs g (.syscVersion sa) (answer (Config.firmwareVersion s.fwVersion)) ∧
    s.Runs g (.syscHealth sa) (fun t => answer t.health t) ∧
    (svcKnown svc = false → s.Runs g (.syscUnknownService sa svc) (answer (BitVec.allOnes 64))) ∧
    (sc = 3 ∨ sc = 4 ∨ sc = 7 → id ≤ 127 → v.toNat / 2 ^ 32 % 2 ^ 16 = 0 →
      let n := v.toNat % 2 ^ 32
      (s.barWaiters k sc id = [] → s.Runs g (.syscBarrierSetup sa) (fun t => answer 0 (
        t.updPart p fun x => { x with bars := Tab.set 0 x.bars (if sc = 3 then 256 + 128 * (k / 8) + id else if sc = 7 then 128 + id else id) n }))) ∧
      (s.barWaiters k sc id ≠ [] → s.Runs g (.syscBarrierSetup sa) (answer (BitVec.allOnes 64))) ∧
      (n = 0 → s.Runs g (.syscBarrierCancel sa) (fun t => answer 0 (
        (s.barWaiters k sc id).foldl (fun t unit => t.releaseUnit unit true) (t.setBarWaiters k sc id []))))) ∧
    ((s.part p).privilege = false →
      s.Runs g (.syscReleaseHeld sa) (answer (BitVec.allOnes 64)) ∧ s.Runs g (.syscCancelHeld sa) (answer (BitVec.allOnes 64))) ∧
    ((s.part p).privilege = true → s.heldFailed p v = some i →
      s.Runs g (.syscReleaseHeld sa) (fun t => answer 0 (t.updLaunch i fun l =>
        { l with failed := none, met := l.met ++ l.failed.toList, owedBad := true })) ∧
      s.Runs g (.syscCancelHeld sa) (fun t => answer 0 ((t.updLaunch i fun l => { l with owed := [] }).endLaunch i 11 2 { code := 11, source := 2 }))) ∧
    (s.localCheck g v 64 64 = none → podRecOk r = true → (∀ a ∈ [Acc.read, .write, .atomic], s.reaches g (BitVec.ofNat 64 (recN r 24 8)) 8 a pa) →
      ∃ effect, s.Runs g (.winreg sa sb) effect ∧ ∀ t : State, t.parts = s.parts →
        (effect t = State.answers g sb (BitVec.allOnes 64) t.tick ∨
          ∃ id < 1024, Tab.get none (s.part p).pod id = none ∧ effect t = State.answers g sb (BitVec.ofNat 64 id)
            (t.tick.updPart p fun x => { x with pod := Tab.set none x.pod id (some (podOf r)) }))) ∧
    (v.toNat < 128 → s.inPart p (v.toNat / 4 / 4) = true → (s.core (v.toNat / 4)).health ≠ .out → s.localCheck g (s.S g sb) 256 256 = none →
      let q := Tab.get [] (s.core (v.toNat / 4)).queues (v.toNat % 4)
      (q.length < 8 → s.rowsWaiting g v = false → s.Runs g (.qsend sa sb) fun t => t.updCore (v.toNat / 4) fun x =>
        { x with queues := Tab.set [] x.queues (v.toNat % 4) (Tab.get [] x.queues (v.toNat % 4) ++ [Mem.readRow (s.core k).ram (s.S g sb).toNat]) }) ∧
      (8 ≤ q.length → s.Waits g (.qsend sa sb) s))

/-! ### Landing -/

/-- R14, R51, R69, R95, R98, R99, R107: what the one result that falls due does as RESULT_LANDS: a row is written and enters its slot's
newest latch, a scalar, pair, index base, branch target or scale register takes its value, the flags join fpstat, and every other
register keeps its own. s0 takes nothing. R14: a result due at a step is seen by the bundle of that step. R51, R72 to R76: a write of
a control register, a value of ls.split moving the banks between the old split and the new, and the value MFC reads of each.
R59, R155: the pending update of the statistics pair, and the row XSTAT samples of it, the pair then zeroed where .clr. -/
def Obligations.ResultsLand : Prop :=
  (∀ (s : State) (g : Nat) (i : Instr), (landDue s g).Solo g → (encode i).isSome = true →
    ∃ t, exec i (landDue s g) = .next t ∧ exec i s = .next (t.takePorts g (portsDue s g))) ∧
  (∀ (s : State) (g : BitVec 7) (f : Flight), (s.ctx g.toNat).seg = none → f.slipped = false →
    ((s.ctx g.toNat).flights.filter fun f => f.remain == 0) = [f] →
    ∃ t, exec (.resultLands g) s = .next t ∧
    let c := s.ctx g.toNat
    let c' := t.ctx g.toNat
    let r := c.regs
    let r' := c'.regs
    let l := latchOf f.slot
    let latched : Prop := r' = { r with latch := r'.latch, fpstat := r.fpstat ||| f.flags } ∧ r'.getLatch l = some f.row ∧
      r'.getLatch (l + 1) = r.getLatch l ∧ ∀ i, i ≠ l → i ≠ l + 1 → r'.getLatch i = r.getLatch i
    (f.kind ≠ 1 → f.kind ≠ 7 → f.kind ≠ 11 → t.cores = s.cores) ∧
    (f.kind ≠ 7 → t = { s with ctxs := t.ctxs, cores := t.cores } ∧ ∀ k, t.core k = { s.core k with ports := (t.core k).ports }) ∧ (∀ j, j ≠ g.toNat → t.ctx j = s.ctx j) ∧ c'.flights = (c.flights.filter fun f => f.remain != 0) ∧
    (f.kind ≠ 1 → f.kind ≠ 7 → f.kind ≠ 11 → c'.v = c.v) ∧
    (f.kind = 1 → latched ∧ ∀ i, c'.getV i = if i = f.dest then f.row else c.getV i) ∧
    (f.kind = 2 → latched) ∧
    (f.kind = 3 → r' = { r with s := r'.s, fpstat := r.fpstat ||| f.flags } ∧ ∀ i, r'.getS i = if i = f.dest ∧ i ≠ 0 then f.value else r.getS i) ∧
    (f.kind = 4 → 1 ≤ f.dest → f.dest ≤ 7 → r' = { r with pred := r'.pred, fpstat := r.fpstat ||| f.flags } ∧
      ∀ i < 16, r'.getP i = if i / 2 = f.dest then (f.value.getLsbD 0 ^^ decide (i % 2 = 1)) else r.getP i) ∧
    (f.kind = 5 → f.value.toNat < 192 → r' = { r with x := r'.x, fpstat := r.fpstat ||| f.flags } ∧
      ∀ i, r'.getX i = if i = f.dest then f.value.toNat else r.getX i) ∧
    (f.kind = 6 → r' = { r with bt := r'.bt, fpstat := r.fpstat ||| f.flags } ∧ ∀ i, r'.getBt i = if i = f.dest then f.value else r.getBt i) ∧
    (f.kind = 8 → r' = { r with sc := r'.sc, fpstat := r.fpstat ||| f.flags } ∧ ∀ i, r'.getSc i = if i = f.dest then f.row else r.getSc i) ∧
    (f.kind = 7 →
      let v := f.value
      let k := g.toNat / 4
      let lo := min (s.core k).split v.toNat
      let hi := max (s.core k).split v.toNat
      c'.v = c.v ∧
      (f.dest ≠ 0x030 → t = { s with ctxs := t.ctxs } ∧ r' =
        if f.dest = 0x010 then { r with trapVec := v } else if f.dest = 0x011 then { r with trapEpc := v }
        else if f.dest = 0x020 then { r with fpstat := r.fpstat &&& ~~~(v.setWidth 6) }
        else if f.dest = 0x021 then { r with sse := v } else if f.dest = 0x022 then { r with cnt := v }
        else if f.dest = 0x040 then { r with segBase := v } else if f.dest = 0x041 then { r with segCount := v }
        else if f.dest = 0x042 then { r with segText := v } else if f.dest = 0x060 then { r with pred := r'.pred }
        else if f.dest = 0x061 then { r with x := r'.x } else r) ∧
      (f.dest = 0x060 → ∀ i < 16, r'.pred.getLsbD i = if i = 0 then true else if i = 1 then false else v.getLsbD i) ∧
      (f.dest = 0x061 → (∀ i < 4, v.toNat / 256 ^ i % 256 < 192) →
        ∀ i, r'.getX i = if i < 4 then v.toNat / 256 ^ i % 256 else r.getX i) ∧
      (f.dest = 0x030 → v.toNat ≤ 8 → t = { s with ctxs := t.ctxs, cores := t.cores } ∧ r' = r ∧ (∀ j, j ≠ k → t.core j = s.core j) ∧
        (t.core k).split = v.toNat ∧
        (∀ a, Mem.read (t.core k).ram a = if lo * 524288 ≤ a ∧ a < hi * 524288 then 0 else Mem.read (s.core k).ram a) ∧
        (lo ≠ hi → ∀ b < 32, (t.core k).moving.getLsbD b = (decide (4 * lo ≤ b) && decide (b < 4 * hi))))) ∧
    (f.kind = 9 → t = { s with ctxs := t.ctxs } ∧ r' = { r with sse := (statLand (r.sse, r.cnt) f).1, cnt := (statLand (r.sse, r.cnt) f).2 }) ∧
    (f.kind = 11 → r' = (if f.value.getLsbD 0 then { r with sse := 0, cnt := 0 } else r) ∧
      ∀ i, c'.getV i = if i = f.dest then BitVec.ofNat 2048 (r.sse.toNat + 2 ^ 64 * r.cnt.toNat) else c.getV i)) ∧
  (∀ (s : State) (g : Nat),
    let r := (s.ctx g).regs
    let p := s.partOf (g / 4)
    let id := (s.readCr g 0x000).toNat
    (g < 128 → p < 8 → (s.shroud p).partLog2 < 4 → id % 4 = g % 4 ∧ id / 4 % 32 = g / 4 ∧ id / 128 % 8 = g / 16 ∧
      id / 1024 % 4 = (s.shroud p).partLog2 ∧ id / 4096 = p) ∧
    (∀ n, 1 ≤ n → n ≤ 8 → s.readCr g n = Tab.get 0 r.wu n) ∧
    s.readCr g 0x010 = r.trapVec ∧ s.readCr g 0x011 = r.trapEpc ∧ s.readCr g 0x012 = r.trapRec ∧
    (∀ i, (s.readCr g 0x013).getLsbD i =
      if i = 0 then r.inHandler else if i = 1 then r.inSeg else if i = 2 then r.step else if i = 3 then r.blocked else false) ∧
    s.readCr g 0x020 = r.fpstat.setWidth 64 ∧ s.readCr g 0x021 = r.sse ∧ s.readCr g 0x022 = r.cnt ∧
    s.readCr g 0x030 = BitVec.ofNat 64 (s.core (g / 4)).split ∧
    s.readCr g 0x040 = r.segBase ∧ s.readCr g 0x041 = r.segCount ∧ s.readCr g 0x042 = r.segText ∧
    (∀ l, r.loops[0]? = some l → s.readCr g 0x050 = l.left) ∧ (∀ l, r.loops[1]? = some l → s.readCr g 0x051 = l.left) ∧
    s.readCr g 0x052 = BitVec.ofNat 64 r.loops.length ∧ s.readCr g 0x060 = r.pred.setWidth 64 ∧
    (∀ i < 4, (s.readCr g 0x061).toNat / 256 ^ i % 256 = r.getX i) ∧ s.readCr g 0x070 = Config.chipId.setWidth 64)

/-! ### Frames -/

/-- The frame of every scalar, vector and transform instruction: but for a trap, an issue, wait or freeze of one changes its context's
pc, its loops where its bundle ends one, its latches and what is in flight, and the steps counted; every register with a number
but those, all memory, the scratchpads and all else of the package are as before. What is in flight is written when it lands. -/
def Obligations.RegisterInstructionsFrame : Prop :=
  ∀ (s t : State) (g : Nat) (i : Instr), s.Solo g → (s.ctx g).regs.step = false → i.registerOnly = true → exec i s = .next t →
    let c := s.ctx g
    let c' := t.ctx g
    let x := s.core (g / 4)
    let x' := t.core (g / 4)
    (∃ trap, t = s.fails g trap) ∨
    (t = { s with ctxs := t.ctxs, cores := t.cores } ∧ (∀ j, j ≠ g → t.ctx j = s.ctx j) ∧ (∀ j, j ≠ g / 4 → t.core j = s.core j) ∧
      x' = { x with frozen := x'.frozen, thaw := x'.thaw, fetched := x'.fetched, perfFreeze := x'.perfFreeze } ∧
      c' = { c with flights := c'.flights, waited := c'.waited, perfSteps := c'.perfSteps, perfIssue := c'.perfIssue, perfStall := c'.perfStall
                    regs := { c.regs with pc := c'.regs.pc, loops := c'.regs.loops, latch := c'.regs.latch, blocked := c'.regs.blocked } })

/-- R12, R13, R345: an instruction of a slot with a field value the encoding tables do not admit has none of its effect: it raises
ILLEGAL_OPERAND at decode, with its own slot in the record. -/
def Obligations.IllegalOperandsTrap : Prop :=
  ∀ (s : State) (g : Nat) (i : Instr) (slot w : Nat), s.Alone g → i.wellFormed = false → encode i = some (slot, w) →
    exec i s = .next (s.fails g { code := .illegalOperand, slot := slot, pc := s.pc g, epc := s.pc g })

/-! ### The events of a core -/

/-- R83, R102, R108, R132, R136, R224 to R226, R330, R332, R349, R358: a load answered in full lands in its register, a row once its bank's write
port is free in the clock; the passing of issue under way is made, a walk is answered with the controller's mapping, WI copies are
dropped, time goes on, a debugger comes and lets its context go on, as an ERET where it has a record, else in place (the model's
choice, log entry 58); a whole core is reefed, a reefed
one goes out of service. R237 to R239: a change of maps of a core with nothing on it takes the rows, columns and checksum column
it names, each a permutation into the physical ones. -/
def Obligations.CoreEvents : Prop :=
  ∀ (s : State) (core : BitVec 5) (g : BitVec 7) (line : Nat) (rows cols : List (BitVec 9)) (ck : BitVec 9),
    let k := core.toNat
    let x := s.core k
    (∀ l v, s.loads.find? (fun m => m.id == l.id) = some l → l.asked = 0 → l.also = [] → l.wu = [] → l.logAt = none → l.mark = none →
      (s.ctx l.g).writing l.dest = false → (match l.answer with | some w => w.toNat | none => l.value) = v →
      (l.dest < 256 → (s.core (l.g / 4)).ports.contains (l.g % 4 * 6 + bankOf l.dest) = false) →
      ∃ t, exec (.globalLoadLands l.id) s = .next t ∧ t = { s with ctxs := t.ctxs, loads := t.loads, cores := t.cores } ∧
        (∀ j, t.core j = { s.core j with ports := (t.core j).ports }) ∧ t.loads = (s.loads.filter fun m => m.id != l.id) ∧
        (t.ctx l.g).isBusy l.dest = false ∧ (∀ j, j ≠ l.g → t.ctx j = s.ctx j) ∧
        (l.dest < 256 → (t.ctx l.g).getV l.dest = BitVec.ofNat 2048 v) ∧
        (256 < l.dest → (t.ctx l.g).regs.getS (l.dest - 256) = BitVec.ofNat 64 v)) ∧
    (∀ c d, x.holder = some c → x.passTo = some d →
      ∃ t, exec (.contextSwitch core) s = .next t ∧ (t.core k).holder = some d ∧ (t.core k).passTo = none ∧ (t.core k).frozen = 0 ∧
        (t.ctx (4 * k + c)).regs = { (s.ctx (4 * k + c)).regs with latch := [] } ∧ (∀ j, j ≠ 4 * k + c → t.ctx j = s.ctx j) ∧ t.mem = s.mem) ∧
    (∀ v r, x.walks = v :: r →
      exec (.walkerAnswer core) s = .next (s.updCore k fun c =>
        { c with walks := r, tlb := Tab.set none c.tlb v (some (Tab.get none (s.part (s.partOf k)).pages v)) })) ∧
    (∃ t, exec (.wiCopyDrop core line) s = .next t ∧ exec (.coreInvalidation core line) s = .next t ∧ t = { s with cores := t.cores } ∧
      (∀ j, j ≠ k → t.core j = s.core j) ∧ Tab.get none (t.core k).wiLines line = none ∧
      ∀ l, l ≠ line → Tab.get none (t.core k).wiLines l = Tab.get none x.wiLines l) ∧
    exec .timebaseTick s = .next { s with timebase := s.timebase + 1 } ∧
    (∀ attach step, exec (.debuggerAttach g attach step) s =
      .next (s.updCtx g.toNat fun c => { c with attached := attach, regs := { c.regs with step := step } })) ∧
    ((s.ctx g.toNat).stopped = true →
      let going := s.updCtx g.toNat fun c => { c with stopped := false }
      exec (.debugResume g) s = .next (if (s.ctx g.toNat).regs.trapRec = 0 then going
        else match going.restoreRecord g.toNat with
          | some u => u.updCtx g.toNat fun c => { c with regs := { c.regs with trapRec := u.trapRecOf g.toNat } }
          | none => going.terminate g.toNat 0 { code := 0, source := 0, context := g.toNat, trap := 2, pc := (s.ctx g.toNat).regs.pc })) ∧
    (∃ t, exec (.coreReef core false) s = .next t ∧ (t.core k).health = if x.health = .whole then .reefed else .out) ∧
    (∃ t, exec (.coreReef core true) s = .next t ∧ (t.core k).health = .out) ∧
    (rows.length = 256 → rows.Nodup → (∀ r ∈ rows, r.toNat < 264) → cols.length = 384 → cols.Nodup → ck ∉ cols → ck.toNat < 392 →
    (∀ c ∈ cols, c.toNat < 392) → (∀ c < 4, (s.ctx (4 * k + c)).unit = none) → (∀ h ∈ (s.core k).halyard, h.running = false) →
    ∃ t, exec (.mapChange core rows cols ck) s = .next t ∧ (t.core k).ckCol = ck.toNat ∧
      (∀ i < 256, (Tab.get none (t.core k).rowMap i).getD i = (rows.getD i 0).toNat) ∧
      (∀ i < 384, (Tab.get none (t.core k).colMap i).getD i = (cols.getD i 0).toNat))

/-- R163, R164, R173, R178, R182 to R185, R187, R189, R247, R249, R284: an idle lane takes the first context's oldest entry that may start; 64 steps of an MMA; the
end of an entry of each kind, with its work done and the entry gone; an ATTN's staged page summed, the boundary before a page passed by
staging it, or by holding the entry where the page raises a fault, or by ending the launch where the handle is stale (R184) or the
walker cannot read the block (log entry 95); a held entry let go with its page promoted, filed, or read as masked. That the idle lane
takes the entry issued first is DEDUCED (log entry 40). -/
def Obligations.HalyardEvents : Prop :=
  ∀ (s : State) (core : BitVec 5) (h : HEntry),
    let k := core.toNat
    let x := s.core k
    let has (t : State) (p : HEntry → Prop) : Prop := ∃ e ∈ (t.core k).halyard, e.id = h.id ∧ p e
    (∀ boom, x.running boom = none → (x.halyard.filter fun e => s.candidate k boom e.c == some e).head? = some h →
      ∃ t, exec (.halyardEntryStart core boom) s = .next t ∧ has t fun e => e.running = true ∧ e.started = true) ∧
    (x.running false = some h → (∀ e ∈ x.halyard, e.c = h.c) →
      (h.op ≠ 8 → h.pos + 64 < h.steps →
        ∃ t, exec (.mmaGroupEnd core) s = .next t ∧ (has t fun e => e.pos = h.pos + 64) ∧ (t.core k).cells = (x.mmaSteps h 64).1.cells ∧
          (t.core k).ram = x.ram ∧ t.mem = s.mem) ∧
      (h.op = 8 → x.running true = none → (s.ctx (4 * k + h.c)).giving = false →
        (∀ st, h.staged = some st →
          exec (.attnPageEnd core) s = .next (
            let u := ((s.attnPage k h st).meetResid k h).pageBoundary k { h with pos := h.pos + 1, staged := none }
            match (u.core k).running false with
            | some n => if n.id = h.id then u.stopPoint k n else u
            | none => u)) ∧
        (∀ l, h.staged = none → s.attnDone k h = false → s.attnLive k h = false → (s.ctx (4 * k + h.c)).launch = some l →
          exec (.attnPageEnd core) s = .next
            (s.endLaunch l 5 0 { code := 5, source := 2, context := 4 * k + h.c, progress := h.attnPi })) ∧
        (∀ id t slot pi, h.staged = none → s.attnDone k h = false → s.attnLive k h = true → s.attnNext k h = some (id, t, slot, pi) →
          let r := s.pageFault (s.partOf k) t (s.pageE (s.partOf k) t slot pi)
          let trouble := (s.blockOf (s.partOf k) t (s.pageE (s.partOf k) t slot pi)).bind fun b =>
            s.layerTrouble (s.partOf k) t b (field h.range.toNat 56 8)
          (r = 0 → trouble = none → exec (.attnPageEnd core) s = .next (s.stagePage k h t slot pi)) ∧
          (∀ y l, r = 0 → trouble = some y → (s.ctx (4 * k + h.c)).launch = some l → exec (.attnPageEnd core) s = .next
            (s.endLaunch l y.1 0 { code := y.1, source := 2, context := 4 * k + h.c, addr := BitVec.ofNat 64 y.2, progress := h.attnPi })) ∧
          (r ≠ 0 → ∃ u, exec (.attnPageEnd core) s = .next u ∧ (has u fun e => e.held = true ∧ e.running = false ∧ e.fault = r) ∧ u.mem = s.mem ∧
            (u.core k).cells = x.cells)))) ∧
    (∀ boom, x.running boom = some h → x.halyard = [h] → (h.op = 2 ∨ h.op = 3 → h.steps ≤ h.pos + 64) → h.op ∈ [2, 3, 5, 6, 7, 9, 10] →
      (9 ≤ h.op → s.destFree k h = true) →
      let marked (t : State) (f : Flags) : State := t.updCtx (4 * k + h.c) fun c => { c with astat := c.astat ||| astatOf f }
      let r := x.mmaSteps h (h.steps - h.pos)
      let worked : State := if h.op = 2 ∨ h.op = 3 then marked (s.setCore k r.1) r.2
        else if h.op = 5 then s.updCore k fun c => c.zeroTiles h.tileList
        else if h.op = 6 then s.runDrain k h
        else if h.op = 7 then s.runBoom k h
        else if h.op = 9 then s.runCarry k h
        else s.runStat k h
      ∃ t, exec (.halyardEntryEnd core boom) s = .next t ∧ (t.core k).halyard = [] ∧ t.mem = s.mem ∧
        (t.core k).cells = (worked.core k).cells ∧ (t.core k).ram = (worked.core k).ram ∧ (t.core k).bm = (worked.core k).bm ∧ (t.core k).bl = (worked.core k).bl ∧
        (t.ctx (4 * k + h.c)).v = (worked.ctx (4 * k + h.c)).v ∧ (t.ctx (4 * k + h.c)).regs = (worked.ctx (4 * k + h.c)).regs ∧
        (t.ctx (4 * k + h.c)).perfEng = (s.ctx (4 * k + h.c)).perfEng + 1 ∧
        (h.op = 5 → ∀ c ∈ h.tileList, ∀ j < 16384, Tab.get 0 (t.core k).cells (c * 16384 + j) = 0)) ∧
    (∀ id t slot pi, x.halyard.find? (fun h => h.held && h.fault != 0) = some h → s.attnNext k h = some (id, t, slot, pi) →
      let p := s.partOf k
      let free (u : State) : State := u.updEntry k h.id fun e => { e with held := false, fault := 0 }
      let filed := s.fileHandle p h.hnd
      (h.fault = 5 → peValid (filed.pageE p t slot pi) = true → exec (.kvFaultService core) s = .next (free filed)) ∧
      (h.fault = 5 → peValid (filed.pageE p t slot pi) = false → exec (.kvFaultService core) s = .next ((free filed).updEntry k h.id fun e =>
        { e with staged := some { pi := pi, T := t.T, fmt := xfmtNum .bf16, bits := 0, fill := 0, spec := 0, sk := one32, sv := one32 } })) ∧
      (h.fault = 6 → s.inTransit p t (s.pageE p t slot pi) = false → exec (.kvFaultService core) s = .next (free s)) ∧
      (∀ b u, h.fault = 7 → (s.endMoves (ctl p) id).blockOf p t ((s.endMoves (ctl p) id).pageE p t slot pi) = some b → b.tier ≠ 0 →
        (s.endMoves (ctl p) id).promoteBlock p id b = some u → exec (.kvFaultService core) s = .next (free u)) ∧
      (∀ b, h.fault = 7 → (s.endMoves (ctl p) id).blockOf p t ((s.endMoves (ctl p) id).pageE p t slot pi) = some b → b.tier = 0 →
        exec (.kvFaultService core) s = .next (free (s.endMoves (ctl p) id))))

/-- R192, R195, R199 to R202, R205 to R207, R213 to R216, R221, R276 to R278, R337: the engines go on. A queued command becomes a
thread. A copy, gather, scatter or expand moves its next bytes from the addresses its command names to those it names, at home, in the
scratchpads or column stores of its cores, or as a row of a queue, and stands where it stopped. A thread with its work done ends with
its object final: a copy, a SIGNAL, a TRIG, HLATCH, TOPK and TOPKR, PUT and GET, and a COLL, whose participants combine in rank order
once all have come. HIST counts its ids. A delivered PUT raises its counter, a waiting row enters its queue, the oldest append entry is
filed, another chip's put is counted. A page that stalls holds a thread (R383). That a put's bytes lie in the far window once sent is
the model's choice (log entry 42). -/
def Obligations.EngineEvents : Prop :=
  ∀ (s : State) (core : BitVec 5) (t : Thread),
    let k := core.toNat
    let x := s.core k
    let c := t.cmd
    let there : Prop := s.threads.find? (fun u => u.id == t.id) = some t
    let found : Prop := there ∧ s.threadStalls t = false
    let run := exec (.engineThreadComplete t.id) s
    (∀ m r, x.engq = m :: r → x.accepts m = true →
      ∃ u, exec (.engineAccept core) s = .next u ∧ u.threads = s.threads ++ [{ id := m.seq, cmd := m, core := k, p := s.partOf k }] ∧
        u.nextThread = s.nextThread ∧ (u.core k).engq = r ∧ u.mem = s.mem ∧ (u.core k).ram = x.ram) ∧
    (∀ (ch : BitVec 4) lo js, s.copyAt k ch.toNat = some (t, lo, js) →
      let q := c.n 16 8
      let sp := c.n 1 1
      let n := js.length
      let waits : Prop := s.covered k c = false ∨ s.copyStalls k t js = true ∨
        (sp = 3 ∧ 8 ≤ (Tab.get [] (s.core (q / 4)).queues (q % 4)).length)
      let read (j : Nat) := s.copyRead t.kept (s.pagesAt t j) k (c.n 0 1) (c.addrs x.ram j).1
      let at_ (j : Nat) := s.engWhere (s.pagesAt t j) k (c.targets k) sp (c.addrs x.ram j).2
      let gets (bytes : List Byte) : Prop :=
        if c.n 3 1 = 1 then ∃ rows, s.expandRows t.kept (s.pagesAt t lo) k c (n / 256) t.pos = (rows, none) ∧ (rows.map (·.1)).flatten = bytes
        else js.map read = bytes.map .ok
      let moved (u : State) (done st : Nat) (fault : Option (Nat × Nat)) (write : State → State) : Prop :=
        (∃ f : Thread → Thread, (∀ y, (f y).id = y.id ∧ (f y).cmd = y.cmd ∧ (f y).state = y.state) ∧
          u = (write (s.updThread t.id f)).landed k t lo done fault) ∧
        (∃ y ∈ u.threads, y.id = t.id ∧ y.progress = (if c.op = 1 then done else done / c.n 24 4) ∧ y.state = st) ∧
        (fault = none → done ≠ c.total → (Tab.get Chan.idle (u.core k).chans ch.toNat).wp = BitVec.ofNat 64 (done / 128 * 128))
      let end_ := if lo + n = c.total then 2 else t.state
      (waits → exec (.copyGranuleLands core ch) s = .next s) ∧
      (∀ (bytes : List Byte) (as : List Nat), ¬waits → c.chan = ch.toNat → js ≠ [] → bytes.length = n → gets bytes → c.unit = 1 ∨ c.unit ∣ n →
        (sp = 3 → ∃ u, exec (.copyGranuleLands core ch) s = .next u ∧ moved u (lo + n) end_ none fun v => v.updCore (q / 4) fun y =>
          { y with queues := Tab.set [] y.queues (q % 4) (Tab.get [] y.queues (q % 4) ++ [bytesRow bytes]) }) ∧
        (sp ≠ 3 → js.map at_ = as.map .ok →
          ∃ u, exec (.copyGranuleLands core ch) s = .next u ∧ (moved u (lo + n) end_ none fun v =>
            v.engWrite (c.writer t.p) sp (c.targets k) (as.zip bytes)) ∧
            (sp ≠ 0 → u.mem = s.mem ∧ ∀ j ∈ c.targets k, (c.targets k).Nodup →
              (u.core j).ram = (if sp = 1 then (as.zip bytes).foldl (fun m e => Mem.write m e.1 e.2) (s.core j).ram else (s.core j).ram) ∧
              (u.core j).col = (if sp = 1 then (s.core j).col else (as.zip bytes).foldl (fun m e => Mem.write m e.1 e.2) (s.core j).col)))) ∧
      (∀ (i : Nat) (bytes : List Byte) (as : List Nat) (j e : Nat), ¬waits → c.chan = ch.toNat → sp ≠ 3 → c.n 3 1 ≠ 1 → c.unit ≠ 1 → js[i]? = some j → (js.take i).map read = bytes.map .ok →
        read j = .error e → (js.take i).map at_ = as.map .ok →
        let m := i / c.unit * c.unit
        ∃ u, exec (.copyGranuleLands core ch) s = .next u ∧ moved u (lo + m) 4 (some (e, (c.addrs x.ram j).1)) fun v =>
          v.engWrite (c.writer t.p) sp (c.targets k) ((as.zip bytes).take m))) ∧
    (there → s.threadStalls t = true → run = .next s) ∧
    (found → c.op = 1 ∨ c.op = 2 ∨ c.op = 3 → t.state ≠ 1 → run = .next (s.threadGone t t.state t.code t.progress t.faultVa)) ∧
    (found → c.op = 24 → t.state ≠ 1 → run = .next (s.threadOut t t.state t.code t.progress t.faultVa)) ∧
    (∀ pa, found → c.op = 7 → s.covered t.core c = true → s.resolve t.p c.a 8 .atomic = .ok pa →
      run = .next ((s.homeStore (c.writer t.p) pa (natBytes 8 (s.homeN pa 8 + c.b.toNat))).threadGone t 2 0 0 0)) ∧
    (found → c.op = 11 → s.covered t.core c = true →
      run = .next { s.trigUnits c.units with threads := (s.trigUnits c.units).threads.filter fun u => u.id != t.id }) ∧
    (∀ u n, found → c.op = 13 → s.hlatchRun t.core c (c.writer t.p) = (u, n, none) → run = .next (u.threadGone t 2 0 n 0)) ∧
    (found → s.topkBefore t = false →
      (c.op = 14 → run = .next ((s.topkRun t.core c).threadGone t 2 0 (c.n 4 4) 0)) ∧
      (c.op = 15 → run = .next ((s.topkResult t.core c).threadGone t 2 0 0 0))) ∧
    (∀ m : EngCmd, m.op = 12 → m.comp = none → ∀ h e, e < 256 →
      let count := m.record.countP fun i => i.toNat == e
      let old := Tab.get 0 (s.shroud (k / 4)).hist (h * 256 + e)
      Tab.get 0 ((s.fork k m).shroud (k / 4)).hist (h * 256 + e) =
        if h = field m.b.toNat 32 4 ∧ count ≠ 0 then min (old + count) (2 ^ 32 - 1) else old) ∧
    (found → c.op = 4 ∨ c.op = 5 → s.covered t.core c = true →
      let as := (List.range (c.n 24 8)).map fun i => (c.n 8 8 + i) % 2 ^ 64
      let win := Tab.get none (s.part t.p).pod c.imm
      (win = none ∨ (∃ w, win = some w ∧ (w.up = false ∨ (t.sent = false ∧ s.reach w.chip = false))) → run = .next (s.threadOut t 4 3 t.progress 0)) ∧
      (∀ w, win = some w → w.up = true → t.sent = false → s.reach w.chip = true →
        (∀ bs, c.op = 4 → s.putBefore t false = false → s.engReads t.core (c.n 0 1) as = (bs, none) →
          ∃ u, run = .next u ∧ u.outbox = s.outbox ++ [(some t.id, w.chip, bs)] ∧ u.remote = (s.remotePut w.chip w.remoteId (c.n 16 8) bs).remote ∧
            u.mem = s.mem ∧ ∃ y ∈ u.threads, y.id = t.id ∧ y.sent = true ∧ y.progress = c.n 24 8) ∧
        (∀ ds, c.op = 5 → s.engWheres t.core (c.n 0 1) as = (ds, none) →
          run = .next ((s.engWrite (c.writer t.p) (c.n 0 1) [t.core]
            (ds.zip ((List.range (c.n 24 8)).map fun i => s.remoteByte w.chip w.remoteId (c.n 16 8 + i)))).threadGone t 2 0 (c.n 24 8) 0)))) ∧
    (found → c.op = 6 →
      let ts := if c.scope = 2 then s.collPeers t else (s.collPeers t).take c.b.toNat
      let rank (u : Thread) : Nat := u.cmd.n 4 4
      let w := c.collFmt.width / 8
      let count := c.n 8 8
      let places (at_ : Nat) (len : Nat) : List Nat := (List.range len).map fun i => (at_ + i) % 2 ^ 64
      (s.collFull t ts = false → run = .next s) ∧
      (s.collFull t ts = true → (∃ u ∈ ts, u.id = t.id) → (∀ u ∈ ts, s.covered u.core u.cmd = true) →
        ((∃ u ∈ ts, ∃ v ∈ ts, u.id ≠ v.id ∧ rank u = rank v) → run = .next (ts.foldl (fun s u => s.threadGone u 4 9 0 0) s)) ∧
        (∀ (byRank : List Thread) (bs : Thread → List Byte), byRank.Perm ts → byRank.Pairwise (fun u v => rank u < rank v) →
          (∀ u ∈ ts, s.engReads u.core 0 (places (u.cmd.n 16 8) (count * w)) = (bs u, none)) →
          let elem (u : Thread) (e : Nat) : Nat := bytesNat (((bs u).drop (e * w)).take w)
          let out := ((List.range count).map fun e => natBytes w (rankTree c.collOp ts.length (byRank.map fun u => elem u e))).flatten
          run = .next (ts.foldl (fun v u =>
            let d := v.engWheres u.core 0 (places (u.cmd.n 24 8) out.length)
            let m := d.1.length / w
            let z := v.homeWrite (u.cmd.writer u.p) ((d.1.zip out).take (m * w))
            match d.2 with
            | none => z.threadGone u 2 0 count 0
            | some f => z.threadGone u 4 f.1 m (BitVec.ofNat 64 f.2)) s)))) ∧
    (∀ w, there → c.op = 4 → t.sent = true → s.putBefore t true = false → Tab.get none (s.part t.p).pod c.imm = some w → w.up = true →
      ∃ u, exec (.putAckReturn t.id) s = .next u ∧ (∀ y ∈ u.threads, y.id ≠ t.id) ∧
        u.outbox = s.outbox.eraseP (fun o => o.1 == some t.id) ∧
        u.mem = ((s.store64 (c.writer t.p) w.counter (s.load64 t.p w.counter + BitVec.ofNat 64 (c.n 24 8))).threadGone t 2 0 (c.n 24 8) 0).mem) ∧
    (there → c.op = 31 → (Tab.get [] (s.core (c.a.toNat / 4)).queues (c.a.toNat % 4)).length < 8 →
      (∀ u ∈ s.earlier t.id, u.2.op = 31 → u.2.a = c.a → u.2.sameSender c = false) →
      ∃ u, exec (.qsendDeferredDeliver t.id) s = .next u ∧ (∀ y ∈ u.threads, y.id ≠ t.id) ∧ u.mem = s.mem ∧
        Tab.get [] (u.core (c.a.toNat / 4)).queues (c.a.toNat % 4) = Tab.get [] (s.core (c.a.toNat / 4)).queues (c.a.toNat % 4) ++ [c.row]) ∧
    (∀ j r, x.journal = j :: r →
      let f := s.fileEntry (s.partOf k) j
      let u := f.1.updCore k fun c => { c with journal := c.journal.tail }
      exec (.filerFileEntry core) s = .next (if f.2 = true ∧ j.g < 128 then u.updCtx j.g fun c => { c with dropped := some j.hnd.toNat } else u)) ∧
    (∀ (p : BitVec 3) (win : BitVec 10) (chip : BitVec 12) (off : Nat) (data : List Byte) w, s.exportFor p.toNat win.toNat chip.toNat 1 = some w →
      off + data.length ≤ w.length → (s.part p.toNat).migration < 2 →
      (∀ i < data.length, ∃ pa, s.resolve p.toNat (w.base + BitVec.ofNat 64 off + BitVec.ofNat 64 i) 1 .write = .ok pa) →
      ∃ (as : List Nat) (u : State), as.length = data.length ∧
        (∀ i < data.length, s.resolve p.toNat (w.base + BitVec.ofNat 64 off + BitVec.ofNat 64 i) 1 .write = .ok (as.getD i 0)) ∧
        u = s.homeWrite (ctl p.toNat) (as.zip data) ∧
        exec (.putLandedAtOwner p win chip off data) s =
          .next (u.store64 (ctl p.toNat) w.counter (u.load64 p.toNat w.counter + BitVec.ofNat 64 data.length)))

/-! ### The events of a line at its home -/

/-- R317, R318, R330, R332 to R334, R340, R341: a read that its home can answer gets the words no other core has registered, the rest being
forwarded; a WI read makes its core a sharer; a write or atomic is performed, its request gone; an OWN request has its words granted;
a context that surrenders a line, or is revoked, holds no word of it, and memory has what it held, unless the line is poisoned. The
words of an aligned 16-byte piece are answered together (R321; that the others of its words are forwarded with one registered is
DEDUCED, log entry 8), and every copy the core holds takes the words it is answered. Reads that this home forwarded to the core are
answered first (R331). -/
def Obligations.HomeEvents : Prop :=
  ∀ (s : State) (r : Req) (evict : Bool),
    let k := r.g / 4
    let sh := s.reqHome r
    let sf := s.flushTo sh k
    let s0 := sf.evictLine sh r.line (evict && !s.isBad sh r.line)
    let away (v : State) : BitVec 32 := wholePieces (v.heldElsewhere k r.line &&& r.words) &&& r.words
    let copy (v : State) : Copy :=
      let c := v.copyOf k r.line
      { c with data := patchLine c.data r.line (v.wordBytes r.line (r.words &&& ~~~away v)) }
    let answered (u v : State) (bs : List (Nat × Byte)) (po : Option Nat) : Prop :=
      (∀ q ∈ u.reqs, q.id ≠ r.id) ∧ u.loads = (match r.load with | some l => (v.answer l bs po).loads | none => v.loads)
    let forwards (u v : State) : Prop := (∀ q ∈ u.reqs, q.id = r.id → q.words = away v ∧ q.forwarded = true) ∧
      u.loads = (match r.load with
        | some l => (v.answerPart l (v.wordBytes r.line (r.words &&& ~~~away v)) (v.poisonOf sh r.line)).loads
        | none => v.loads)
    let s1 := sf.evictLine sh r.line (evict && r.wi)
    let n := if r.w64 then 8 else 4
    let a := r.line * 128 + r.off
    let old := s1.homeBytes a n
    let new := addrBytes a (natBytes n (atomVal r.fn (8 * n) (bytesNat old) r.v.toNat r.new.toNat))
    (s.request r.id [.read] = some r → r.forwarded = false →
      ∃ u, exec (.homeRead r.id evict) s = .next u ∧ u.mem = s.mem ∧
        (r.keep = true → s.isBad sh r.line = false → Tab.get none (u.core k).siLines r.line = some (copy s)) ∧
        (away s = 0 → answered u sf (s.wordBytes r.line (r.words &&& ~~~away s)) (s.poisonOf sh r.line)) ∧ (away s ≠ 0 → forwards u sf)) ∧
    (s.request r.id [.wiRead] = some r → r.forwarded = false → s.isBad sh r.line = false → s0.isBad sh r.line = false → k < 32 →
      ∃ u, exec (.homeWiRead r.id evict) s = .next u ∧ u.mem = s0.mem ∧ Tab.get none (u.core k).wiLines r.line = some (copy s0) ∧
        (∃ d, Tab.get none (u.shroud sh).dir r.line = some d ∧ d.sharers.getLsbD k = true) ∧
        (away s0 = 0 → answered u s0 (s0.wordBytes r.line (r.words &&& ~~~away s0)) (s0.poisonOf sh r.line)) ∧ (away s0 ≠ 0 → forwards u s0)) ∧
    (s.request r.id [.read, .wiRead] = some r → r.forwarded = true →
      ∃ u, exec (.forwardedRead r.id) s = .next u ∧ u.mem = s.mem ∧ (∀ q ∈ u.reqs, q.id ≠ r.id) ∧
        u.loads = match r.load with | some l => (s.answer l (s.wordBytes r.line r.words) (s.poisonOf sh r.line)).loads | none => s.loads) ∧
    (s.request r.id [.write, .atom] = some r →
      let bs := if r.kind = .atom then new else r.data
      let v := s1.lineWrite { tag := r.tag, p := s.partOf k, keep := if r.wi then some k else none } r.line bs
      ∃ u, exec (.homeWriteAccept r.id evict) s = .next u ∧ answered u v (addrBytes a old) (s1.poisonOf sh r.line) ∧ u.mem = v.mem) ∧
    (s.request r.id [.own] = some r → s.poisonOf sh r.line = none →
      ∃ u, exec (.homeOwnRequest r.id evict) s = .next u ∧ (∀ q ∈ u.reqs, q.id ≠ r.id) ∧
        ∀ i < 128, r.words.getLsbD (i / 4) = true → (Tab.get none (u.ctx r.g).owned (r.line * 128 + i)).isSome = true) ∧
    (∀ (g : BitVec 7) (line : Nat),
      let bs := (s.ctx g.toNat).ownedIn line 0xFFFFFFFF
      let bad := s.isBad (s.homeShroud (s.partOf (g.toNat / 4)) (line * 128)) line
      let returned (u : State) : Prop := (u.ctx g.toNat).ownedIn line 0xFFFFFFFF = [] ∧
        u.mem = if bad then s.mem else (s.poke (bs.map fun b => (b.1, b.2.val))).mem
      (∃ u, exec (.homeSurrender g line) s = .next u ∧ returned u) ∧
      (bs ≠ [] → ∃ u, exec (.registrantRevocation g line) s = .next u ∧ returned u))

/-- R330, R341, R364, R385: clearing a summary bucket takes every WI copy it covers, of the cores it names, away; an error in a clean L2
line drops it, one in a dirty line stops its writers, or every launch of the partition where the tag is shared, and leaves its page to
be retired, its way to be quarantined and the writers' objects to be written by the next such event (log entry 48; the set is the line's and the way one of
its set, log entry 13); a back-invalidate of the pool frees the line's entry; a pool device that does
not answer poisons its load. -/
def Obligations.DirectoryAndErrorEvents : Prop :=
  ∀ (s : State) (sh : BitVec 3) (bucket : BitVec 12) (line : Nat) (set : BitVec 14) (way : BitVec 8),
    let home := s.homeShroud (s.linePart line) (line * 128)
    (∃ u, exec (.summaryBucketClear sh bucket) s = .next u ∧ Tab.get 0 (u.shroud sh.toNat).summary bucket.toNat = 0 ∧ u.mem = s.mem ∧
      ∀ c < 32, (Tab.get 0 (s.shroud sh.toNat).summary bucket.toNat).getLsbD c = true → s.inPart (s.shroud sh.toNat).partFirst (c / 4) = true →
        ∀ l, Config.summaryHash l = bucket → s.homeShroud (s.shroud sh.toNat).partFirst (l * 128) = sh.toNat →
          Tab.get none (u.core c).wiLines l = none) ∧
    (∀ l, Tab.get none (s.shroud home).l2 line = some l → set = Config.l2Set line → way.toNat < 24 → (Config.l2Set line).toNat * 24 + way.toNat ∉ (s.shroud home).qways →
      (∀ r ∈ s.retiring, r.line ≠ line) →
      (l.dirty = false → exec (.l2UeDetect line set way) s =
        .next (({ s with healthReg := { s.healthReg with ue := min 255 (s.healthReg.ue + 1) } } : State).updShroud home fun h =>
          { h with l2 := Tab.set none h.l2 line none })) ∧
      (l.dirty = true → ∃ u b, exec (.l2UeDetect line set way) s = .next u ∧ u.retiring = s.retiring ++ [b] ∧ b.line = line ∧ b.way = way.toNat ∧
        ∀ i, i ∈ b.ends ↔ s.live i = true ∧ ∃ x, s.launches[i]? = some x ∧
          if l.shared then x.p = s.linePart line ∧ x.stage ≠ .final else l.owner = i + 1)) ∧
    (∀ r, s.retiring.find? (fun r => r.line == line) = some r →
      ∃ u, exec (.l2UeDetect line set way) s = .next u ∧ line * 128 / 65536 ∈ u.retired ∧ (∀ r ∈ u.retiring, r.line ≠ line) ∧
        (Config.l2Set r.line).toNat * 24 + r.way ∈ (u.shroud home).qways) ∧
    (poolBase ≤ line * 128 → line * 128 < hostBase →
      ∃ u, exec (.poolBackInvalidate line) s = .next u ∧
        ∀ p < 8, (s.shroud p).partFirst = p → Tab.get none (u.shroud (s.homeShroud p (line * 128))).dir line = none) ∧
    (∀ r l, s.reqs.find? (fun q => q.id == r.id && decide (poolBase ≤ q.line * 128) && decide (q.line * 128 < hostBase)) = some r → r.load = some l →
      exec (.poolDeviceTimeout false r.id) s = .next ((s.dropReq r.id).answer l [] (some r.line)))

/-! ### The spindle and the stores -/

/-- R294 to R302, R307, R311, R376: a record is refused with its status, or accepted: its object pending, its launch id, then status 1
written, its dependences decided; a failed dependence holds its launch failed, a launch
whose dependences are all satisfied is counted and a running one settled, a gang is placed, an entry passed over for its period keeps
contexts, the victims of a call are to be saved, a running launch is killed and a scrub of its stores is due, a launch-window store with
the right key is submitted and any other dropped and counted; reading SPN.STAT gives its value and clears its dropped count. -/
def Obligations.SpindleEvents : Prop :=
  ∀ (s : State) (i : Nat) (l : Launch), s.launches[i]? = some l →
    (∀ t, s.threads.find? (fun u => u.id == t.id && u.cmd.op == 9) = some t → t.core ≠ 32 → s.covered t.core t.cmd = true → s.partOpen t.p = true →
      s.threadStalls t = false →
      let fresh : State := { s with threads := s.threads.filter fun u => u.id != t.id }
      let m : Launch := { id := s.freshId, p := t.p, va := t.cmd.a, record := s.loadVa t.p t.cmd.a 128, stage := .held, outcome := none
                          code := 0, verdict := 0, slice := s.sliceFor t.p, failed := none, next := 0, total := 0, outstanding := 0
                          triggered := 0, trig := false, since := s.timebase, passed := none, kept := false, claim := [], saved := []
                          fault := 0, owed := [], owedBad := false, met := [] }
      let st := fresh.recordStatus m
      (st ≠ 1 → exec (.spindleDecide t.id) s = .next (fresh.store64 (ctl t.p) (t.cmd.a + 80) (BitVec.ofNat 64 st))) ∧
      (st = 1 →
        let entered : State := { fresh with launches := s.launches ++ [m], nextLaunch := s.nextLaunch + 1 }
        let told := ((entered.store64 (ctl t.p) m.co 0).store64 (ctl t.p) (t.cmd.a + 88) (BitVec.ofNat 64 m.id)).store64 (ctl t.p) (t.cmd.a + 80) 1
        exec (.spindleDecide t.id) s = .next ((told.decideDeps s.launches.length).endStranded t.p))) ∧
    (∀ d < l.ndeps, l.stage = .held → l.failed = none → d ∉ l.met → depFails (l.need d) (s.load64 l.p (l.dep d)) = true →
      ∃ u y f, exec (.dependenceDecided i) s = .next u ∧ u = { s with launches := u.launches } ∧ u.launches[i]? = some y ∧ y.stage = .held ∧
        y.failed = some f ∧ f < l.ndeps ∧ f ∉ l.met ∧ depFails (l.need f) (s.load64 l.p (l.dep f)) = true) ∧
    (l.stage = .held → l.failed = none → (∀ d < l.ndeps, d ∉ l.met → depMet (l.need d) (s.load64 l.p (l.dep d)) = true) →
      let w (d : Nat) : Word := s.load64 l.p (l.dep d)
      let now := (List.range l.ndeps).filter fun d => !l.met.contains d
      let byTrig := now.filter fun d => l.need d == 0 && coTrig (w d)
      exec (.dependenceDecided i) s = .next ((s.updLaunch i fun x => { x with
        met := x.met ++ now, failed := none, owed := x.owed ++ byTrig.filter fun d => !coFinal (w d),
        owedBad := x.owedBad || byTrig.any fun d => coBad (w d) }).count i)) ∧
    (l.stage = .running → exec (.dependenceDecided i) s = .next (s.settle i)) ∧
    (∀ key c u, s.bestCand i = some (key, c) → s.partOpen l.p = true → (s.part l.p).migration < 2 → s.mayGo l.p i key = true →
      (s.placeGang i key c = some u → exec (.dispatchGang i) s = .next (u.coWrite i)) ∧
      (s.placeGang i key c = none →
        exec (.dispatchGang i) s = .next (s.updLaunch i fun x => { x with passed := some (x.passed.getD s.timebase) }))) ∧
    (∀ t, l.passed = some t →
      (s.patience l.p ≤ (s.timebase - t).toNat → exec (.passedOverTimeout i) s = .next (s.updLaunch i fun x => { x with kept := true })) ∧
      ((s.timebase - t).toNat < s.patience l.p → exec (.passedOverTimeout i) s = .next s)) ∧
    (∀ key c ks v, s.bestCand i = some (key, c) → (s.part l.p).spnCtl.toNat % 256 ≠ 0 → l.take = false → s.placeGang i key c = none →
      s.partOpen l.p = true → (s.part l.p).migration < 2 → s.groups l = [ks] →
      s.victims i key (key / 2 ^ 24) ((s.part l.p).spnCtl.toNat % 256) c ks = some v →
      ∃ u y, exec (.preemptionCall i) s = .next u ∧ (∀ r ∈ v, ∀ g ∈ r.ctxs, (u.ctx g).preempt = true) ∧
        (∀ g, (∀ r ∈ v, g ∉ r.ctxs) → u.ctx g = s.ctx g) ∧ u.launches[i]? = some y ∧ y.claim = l.claim ++ v.flatMap fun r => r.ctxs) ∧
    (l.stage = .running → exec (.launchKill i) s =
      .next ((s.endLaunch i 11 2 { code := 11, source := 2 }).scrubsDue l.p)) ∧
    (∀ (p : BitVec 3) (value : BitVec 64), s.mboxExists (.vf p) = true →
      let va : Word := BitVec.ofInt 64 (signExt (value.toNat % 2 ^ 48 * 128) 55)
      let key : Prop := value.toNat / 2 ^ 48 = (s.part p.toNat).spnCtl.toNat / 2 ^ 48
      (∀ pr pw, key → s.resolve p.toNat va 1 .read = .ok pr → s.resolve p.toNat va 1 .write = .ok pw →
        exec (.launchWindowStore p value) s = .next { s with
          threads := s.threads ++ [{ id := s.nextThread, cmd := { op := 9, g := 128, a := va, scope := 4 }, core := 32, p := p.toNat }]
          nextThread := s.nextThread + 1 }) ∧
      (¬key → exec (.launchWindowStore p value) s = .next (s.updPart p.toNat fun x => { x with dropped := min 65535 (x.dropped + 1) })) ∧
      let stat : Word := BitVec.ofNat 64 ((s.part p.toNat).dropped * 2 ^ 48 + min 65535 (s.heldCount p.toNat) * 2 ^ 32 + s.present p.toNat)
      exec (.spnStatRead p) s = .next ({ s with hostRead := stat }.updPart p.toNat fun x => { x with dropped := 0 }))

/-- R217, R258, R259, R271, R274, R275, R280 to R284, R388: the lend of a block that a page names alone asks the window's owner for a frame
and, offered one that holds the block, commits. The next commit of a block's move: a forwarded block has its next holder rewritten, or
without one is released; a borrowed frame starts for home and comes home; a block whose promotion is asked for, or that the ladder picks,
moves. The ladder runs where it is on; the scrubber runs once no filer entry or engine operation of the store is in flight; frames of a
lending pool are taken and returned. A lend ends with code 8 for a store without a table of borrowed frames, and MOVE_COMMIT brings a
borrowed frame home: both the model's reading (log entry 59); a lend of a block it cannot read ends with the trap's code (log entry 95). -/
def Obligations.StoreEvents : Prop :=
  ∀ (s : State) (p : BitVec 3) (store : BitVec 6) (ref : BitVec 32) (win : BitVec 10) (chip : BitVec 12) (t : Store),
    let q := p.toNat
    let id := store.toNat
    let b := t.blkOfRef ref.toNat
    let w0 : Writer := ctl q
    let asked : Prop := (s.part q).wants.contains (id, ref.toNat) = true
    let forget (u : State) := u.updPart q fun x => { x with wants := x.wants.filter fun w => w != (id, ref.toNat) }
    (∀ th slot w e blk, s.threads.find? (fun u => u.id == th.id && u.cmd.op == 24 && u.state == 1) = some th → th.p = q → th.cmd.lost = false →
      s.handle q th.cmd.a.toNat = some (id, t, slot) → th.cmd.n 4 4 < s.seqN q t slot 12 4 → Tab.get none (s.part q).pod (th.cmd.n 8 2) = some w →
      w.up = true → s.pageE q t slot (th.cmd.n 4 4) = e → peValid e = true → (peLoc e = 0 ∨ peLoc e = 1 ∨ peLoc e = 4) →
      s.blockOf q t e = some blk → s.refs q t blk = 1 →
      exec (.kvlendRun th.id) s = .next (
        if s.reach w.chip = false then s.threadEnd th.id 4 3 0
        else match s.blkTrouble q t blk with
        | some y => s.threadEnd th.id 4 y.1 0
        | none => match s.askFrame w.chip w.remoteId with
          | (u, some (f, size)) =>
            if size < t.blockB blk.fmt then u.threadEnd th.id 3 9 0
            else if t.n 36 1 = 0 ∨ u.refs q t ⟨blk.fmt, 0, f, some (w.chip, w.remoteId, size)⟩ ≠ 0 then u.threadEnd th.id 3 8 0
            else ((u.lendBlock (th.cmd.writer q) id slot (th.cmd.n 4 4) blk w f size).threadEnd th.id 2 0 0).updThread th.id fun t => { t with progress := 1 }
          | (u, none) => u.threadEnd th.id 3 8 0)) ∧
    (s.storeOf q id = some t →
      let free : Prop := s.fwd q t b = false ∧ s.refs q t b ≠ 0 ∧ ∀ r ∈ t.moves, s.follow q t (t.blkOfRef r) ≠ b
      (∀ e r, s.fwd q t b = true → s.namers q t b = e :: r → exec (.moveCommit p store ref) s = .next (s.rewrite w0 id t b e)) ∧
      (s.fwd q t b = true → s.namers q t b = [] →
        exec (.moveCommit p store ref) s = .next (s.commit w0 { kind := 11, store := id, what := 0, down := b.ref })) ∧
      (free → b.far ≠ none →
        let es := (s.namers q t b).filter fun e => peLoc e.2.2 != 3
        (es ≠ [] → exec (.moveCommit p store ref) s = .next (s.transit q id t es b)) ∧
        (∀ u, es = [] → s.promoteCommit q id b = some u → exec (.moveCommit p store ref) s = .next u)) ∧
      (∀ u, free → b.far = none → asked → s.promoteCommit q id b = some u → exec (.moveCommit p store ref) s = .next (forget u)) ∧
      (∀ i u nb, free → b.far = none → ¬asked → t.ladderDue = true → s.movable q t b = true → t.ladderStep (field (s.meta0 q t b) 45 3) b = some i →
        s.popBlock w0 id i (field (s.meta0 q t b) 45 3) = some (u, nb) → exec (.moveCommit p store ref) s = .next (u.moveCommit w0 id b nb)) ∧
      exec (.ladderRun p store) s = .next (if t.ladderOn then s.ladder q id else s)) ∧
    (asked →
      let v := (forget s).endMoves w0 id
      v.storeOf q id = some t →
        (b.tier = 0 ∨ b.far ≠ none ∨ v.refs q t b = 0 → exec (.controllerPromote p store ref) s = .next v) ∧
        (∀ u, b.tier ≠ 0 → b.far = none → v.refs q t b ≠ 0 → v.promoteBlock q id b = some u → exec (.controllerPromote p store ref) s = .next u)) ∧
    (let cleared (u : State) := u.updPart q fun x => { x with scrubs := x.scrubs.filter fun i => i != id };
      (s.storeBusy q id = false → exec (.scrubberRun p store) s = .next (cleared (s.scrub q id)) ∧ exec (.engineReset p store) s = .next (cleared (s.scrub q id))) ∧
      (s.storeBusy q id = true → exec (.scrubberRun p store) s = .next (s.scrubDue q id) ∧ exec (.engineReset p store) s = .next (s.scrubDue q id))) ∧
    (∀ l f r w, Tab.get none (s.part q).lendPools win.toNat = some l →
      (s.exportFor q win.toNat chip.toNat 1 = some w → l.free = f :: r → l.withdrawn = false →
        exec (.frameTake p win chip) s = .next ((s.setPool q win.toNat { l with free := r, lent := l.lent ++ [(f, chip.toNat)] }).tell chip.toNat (natBytes 4 f))) ∧
      (s.exportFor q win.toNat chip.toNat 1 = some w → l.free = [] ∨ l.withdrawn = true →
        exec (.frameTake p win chip) s = .next (s.tell chip.toNat (natBytes 4 0xFFFFFFFF))) ∧
      (∀ frame : BitVec 24, (∃ c, (frame.toNat, c) ∈ l.lent) → l.withdrawn = false →
        ∃ u, exec (.frameReturn p win frame) s = .next u ∧
          Tab.get none (u.part q).lendPools win.toNat = some { l with free := frame.toNat :: l.free, lent := l.lent.filter fun y => y.1 != frame.toNat }))

/-! ### Partitions and mailboxes -/

/-- R341, R351, R361, R364, R365, R391, R396: an open of a set of shrouds that are off opens its gates with the partition begun afresh; a reset
closes them, and is what a function-level reset does; then what still crosses is cut, and every memory, core and context of the set
reads as after reset, but for its window table; an audit is read and cleared; a translation changes, in the table and every TLB of the
partition, once no access under the old one is under way, its words being published till then. That it is one event (log entry 39), and
that a frame number lies below 2^35 (log entry 7), is the model's. -/
def Obligations.PartitionEvents : Prop :=
  ∀ (s : State) (k : BitVec 3),
    let h := s.shroud k.toNat
    let p := h.partFirst
    let set := s.setOf k.toNat
    (s.mboxExists .pf = true → s.boot = 0xFF → s.stoppedByHeat = false → p % 2 ^ h.partLog2 = 0 → k.toNat ∈ set →
      (∀ j ∈ set, (s.shroud j).state = .off ∧ (s.shroud j).partFirst = p ∧ (s.shroud j).partLog2 = h.partLog2) →
      ∃ u, exec (.shroudOpen k) s = .next u ∧ (∀ j ∈ set, (u.shroud j).state = .ready ∧ (u.shroud j).gateClosed = false) ∧
        (u.part p).keyGen = (s.part p).keyGen + 1 ∧ (u.part p).windows = (s.part p).windows ∧
        (u.part p).pages = [] ∧ (u.part p).stores = [] ∧ u.mem = s.mem) ∧
    (s.mboxExists .pf = true → h.state = .ready → (s.shroud p).state = .ready →
      ∃ u, exec (.shroudReset k) s = .next u ∧ (∀ j ∈ s.setOf p, (u.shroud j).state = .draining ∧ (u.shroud j).gateClosed = true) ∧
        (p = k.toNat → exec (.vfFunctionLevelReset k) s = .next u)) ∧
    (h.state = .draining → ∃ u, exec (.shroudDrainEnd k) s = .next u ∧ (∀ j ∈ s.setOf p, (u.shroud j).state = .zeroising) ∧ ∀ t ∈ u.threads, t.p ≠ p) ∧
    (h.state = .zeroising → ∃ u, exec (.shroudZeroiseEnd k) s = .next u ∧
      (∀ j ∈ s.setOf p, (u.shroud j).state = .off ∧ (u.shroud j).gateClosed = true ∧ (∀ a, a / 2 ^ 36 = j → Mem.read u.mem a = 0) ∧
        (∀ c < 16, u.ctx (16 * j + c) = Ctx.reset) ∧ ∀ c < 4, (u.core (4 * j + c)).ram = [] ∧ (u.core (4 * j + c)).health = (s.core (4 * j + c)).health) ∧
      (p < 8 → (u.part p).windows = (s.part p).windows ∧ (u.part p).pages = [] ∧ (u.part p).stores = [])) ∧
    (s.mboxExists .pf = true → exec (.gateAuditRead k) s =
      .next ({ s with hostRead := BitVec.ofNat 64 (h.probes * 2 ^ 32 + h.refused) }.updShroud k.toNat fun h => { h with probes := 0, refused := 0 })) ∧
    (∀ (v : BitVec 48) (map : Option PageMap), v.toNat < 2 ^ 39 → s.partOpen k.toNat = true →
      let old := Tab.get none (s.part k.toNat).pages v.toNat
      let fits : Prop := ∀ m, map = some m → m.frame < 2 ^ 35 ∧ (m.mtype = .hbm ∨ m.mtype = .window → m.frame ∉ s.retired)
      (fits → (∀ m, old = some m → s.underMap k.toNat v.toNat m = false) →
        ∃ u, exec (.translationChange k v map) s = .next u ∧ Tab.get none (u.part k.toNat).pages v.toNat = map ∧ u.mem = s.mem ∧
          ∀ c ∈ s.partCores k.toNat, Tab.get none (u.core c).tlb v.toNat = none) ∧
      (∀ m, fits → old = some m → s.underMap k.toNat v.toNat m = true → exec (.translationChange k v map) s = .next
        ((s.partCores k.toNat).foldl (fun (s : State) c => s.publish c fun a _ => a / 65536 == pagePa m 0 / 65536) s)) ∧
      (¬fits → exec (.translationChange k v map) s = .next s))

/-- R377 to R379, R204, R261, R262, R269, R299, R342: the commands of a partition's mailbox, their block in form, end with their effect; an
unknown code ends with error 1. The place of a descriptor is free (log entry 38); that setting the area of fault records counts none as
written in it is the model's choice (log entry 61). -/
def Obligations.PartitionMailboxCommands : Prop :=
  ∀ (s : State) (q : BitVec 3) (tag : BitVec 8), let mb := Mbox.vf q
    let p := q.toNat
    let b := s.block mb
    let f := blkN b
    s.mailFree mb →
      let runs (i : Instr) (cmd : Nat) (fields : List (Nat × Nat)) (effect : State → State) : Prop :=
        onlyFields b fields = true → exec i s = .next (s.mailDone mb cmd tag 0 effect)
      (f 0 1 ≤ 63 → (∀ o, s.storeOf p (f 0 1) = some o → s.storeLive p o = false) →
        (∀ t : Store, t = { desc := (b.drop 64).take 256, rsv := [], lends := [], moves := [] } → t.descOk = true →
          runs (.mboxConfigureStore mb tag) 0x01 [(0, 1), (64, 256)] fun u =>
            let v := u.tick
            let at_ := (Config.freeWord v.freeCtr).toNat % (u.partSize p * 2 ^ 28) * 256
            let new := { t with lends := u.lendsOf p t, place := some at_ };
            (((v.tick.updPart p fun x => { x with stores := Tab.set none x.stores (f 0 1) (some new) }).homeStore
              (ctl p) (p * 2 ^ 36 + at_) t.desc).scrub p (f 0 1))) ∧
        runs (.mboxUnconfigureStore mb tag) 0x02 [(0, 1)] fun u =>
          (u.updStore p (f 0 1) fun t => t.put 0 1 0).updPart p fun x => { x with stores := Tab.set none x.stores (f 0 1) none }) ∧
      (f 0 2 ≤ 1023 →
        (podRecOk ((b.drop 64).take 64) = true → Tab.get none (s.part p).pod (f 0 2) = none →
          runs (.mboxRegisterPodWindow mb tag) 0x03 [(0, 2), (64, 64)] fun u =>
            u.updPart p fun x => { x with pod := Tab.set none x.pod (f 0 2) (some (podOf ((b.drop 64).take 64))) }) ∧
        runs (.mboxWithdrawPodWindow mb tag) 0x04 [(0, 2)] fun u => u.updPart p fun x => { x with pod := Tab.set none x.pod (f 0 2) none }) ∧
      (f 0 8 / 2 ^ 8 % 2 ^ 24 = 0 →
        runs (.mboxSetSpnCtl mb tag) 0x05 [(0, 8)] fun u => u.updPart p fun x => { x with spnCtl := BitVec.ofNat 64 (f 0 8) }) ∧
      (f 0 8 % 64 = 0 → f 16 8 % 8 = 0 → (∃ i, 4 ≤ i ∧ i ≤ 20 ∧ f 8 4 = 2 ^ i) →
        runs (.mboxSetFaultRecordArea mb tag) 0x06 [(0, 8), (8, 4), (16, 8)] fun u => u.updPart p fun x =>
          { x with faultBase := BitVec.ofNat 64 (f 0 8), faultCount := f 8 4, faultCtr := BitVec.ofNat 64 (f 16 8), faultWritten := 0 }) ∧
      (f 0 8 % 256 = 0 → f 8 8 % 256 = 0 → 21760 ≤ f 8 8 → onlyFields b [(0, 8), (8, 8)] = true →
        ∃ u, exec (.mboxSetTrapRecords mb tag) s = .next u ∧ (u.part p).trapBase = BitVec.ofNat 64 (f 0 8) ∧ (u.part p).trapStride = f 8 8 ∧
          ∀ g < 128, s.inPart p (g / 16) = true → s.partOf (g / 4) = p → (u.ctx g).regs.trapRec =
            if (s.ctx g).regs.inHandler then (s.ctx g).regs.trapRec
            else (BitVec.ofNat 64 (f 0 8) + BitVec.ofNat 64 (f 8 8 * (g - 16 * p)) : Word)) ∧
      (∀ t, f 1 1 ≤ 63 → s.storeOf p (f 1 1) = some t →
        (f 0 1 = 0 → f 2 1 ≤ 5 → f 3 1 ≤ 1 → f 4 4 < t.pool (f 2 1) 16 4 → runs (.mboxSetPinOrClass mb tag) 0x08 [(0, 8)] fun u =>
          u.putMeta (ctl p) t ⟨f 2 1 % 3, f 2 1 / 3, f 4 4, none⟩ 44 1 (f 3 1)) ∧
        (f 0 1 = 1 → f 2 1 = 0 → f 3 1 ≤ 7 → f 4 4 < t.slots → runs (.mboxSetPinOrClass mb tag) 0x08 [(0, 8)] fun u => u.seqPut (ctl p) t (f 4 4) 2 1 (f 3 1))) ∧
      (6 ≤ f 0 1 → f 0 1 ≤ 15 → 1 ≤ f 16 8 → f 16 8 ≤ 2 ^ 32 → runs (.mboxDeclareMeasuredImage mb tag) 0x09 [(0, 1), (8, 8), (16, 8)] fun u =>
        u.measure p (f 0 1) (digestOf (u.loadVa p (BitVec.ofNat 64 (f 8 8)) (f 16 8)))) ∧
      (∀ cmd : BitVec 8, cmd.toNat ∉ vfCommands → cmd.toNat ∉ pfCommands →
        exec (.mboxUnknownCommand mb tag cmd) s = .next ((s.setMail mb { s.mailOf mb with cmd := cmd.toNat }).mailEnd mb tag.toNat 1 0))

/-- R204, R282, R285, R362, R377 to R379, R388 to R390, R394: the commands of the package's mailbox, the five steps of a migration among
them. What a saved form holds, that a restore uses it up, and how long it is, are the model's (log entry 41); so are the withdrawal
that runs until the last frame is home (log entry 59) and the window entry's bits that clear where written 1 (log entry 61). -/
def Obligations.PackageMailboxCommands : Prop :=
  ∀ (s : State) (tag : BitVec 8), let mb := Mbox.pf
    let b := s.block mb
    let f := blkN b
    let p := f 0 1
    s.mailFree mb →
      let runs (i : Instr) (cmd : Nat) (fields : List (Nat × Nat)) (effect : State → State) : Prop :=
        onlyFields b fields = true → exec i s = .next (s.mailDone mb cmd tag 0 effect)
      (f 0 2 < 4096 → runs (.mboxSetTimeMaster mb tag) 0x15 [(0, 2)] fun u => { u with chipMaster := BitVec.ofNat 12 (f 0 2) }) ∧
      (onlyFields b [(0, 8), (8, 8)] = true →
        let img := Mem.readBytes s.mem (hostBase + f 0 8) (f 8 8)
        exec (.mboxFirmwareUpdate mb tag) s = .next (
          if Config.imageSignatureGood img = true ∧ Config.fusedMinimum.toNat ≤ (Config.imageVersion img).toNat then
            s.mailDone mb 0x30 tag 0 fun u => { u with fwFlash := img }
          else (s.setMail mb { s.mailOf mb with cmd := 0x30, tag := tag.toNat }).mailEnd mb tag.toNat 3 0)) ∧
      (p ≤ 7 → s.partOpen p = true →
        (f 1 1 ≤ 1 → runs (.mboxHeldLaunchPrivilege mb tag) 0x12 [(0, 2)] fun u => u.updPart p fun x => { x with privilege := f 1 1 == 1 }) ∧
        (∀ w, f 4 4 ≠ 0 → f 4 4 % 65536 = 0 → f 8 4 ≠ 0 → f 8 4 ≤ 2 ^ 24 → Tab.get none (s.part p).pod (f 2 2) = some w → w.imp = false →
          f 8 4 * f 4 4 ≤ w.length → Tab.get none (s.part p).lendPools (f 2 2) = none →
          runs (.mboxOfferLendingPool mb tag) 0x13 [(0, 1), (2, 2), (4, 4), (8, 4)] fun u =>
            u.setPool p (f 2 2) { size := f 4 4, free := List.range (f 8 4), lent := [], withdrawn := false }) ∧
        (onlyFields b [(0, 1)] = true → (∃ e ∈ (s.part p).lendPools, ∃ l, e.2 = some l ∧ l.lent ≠ []) →
          exec (.mboxWithdrawLendingPool mb tag) s = .next ((s.updPart p fun x =>
            { x with lendPools := x.lendPools.map fun e => (e.1, e.2.map fun l => { l with withdrawn := true }) }).setMail mb
            { s.mailOf mb with cmd := 0x14, tag := tag.toNat, part := p, state := 1, code := 0 })) ∧
        (∀ w, f 1 1 ≤ 63 → windowOf b (Tab.get none (s.part p).windows (f 1 1)) = w → w.base % 65536 = 0 → w.length % 65536 = 0 → f 50 1 ≤ 1 →
          (w.length ≠ 0 → p * 2 ^ 36 ≤ w.base ∧ w.base + w.length ≤ (p + s.partSize p) * 2 ^ 36) → onlyFields b [(0, 1), (1, 1), (32, 21)] = true →
          ∃ u, exec (.mboxWriteWindowEntry mb tag) s = .next u ∧
            Tab.get none (u.part p).windows (f 1 1) = some w ∧ u.mail.state = 2) ∧
        ((s.part p).migration = 0 → f 8 8 % 4096 = 0 → runs (.migrateStart mb tag) 0x20 [(0, 1), (8, 8)] fun u =>
          let v := u.updPart p fun x => { x with migration := 1, migBitmap := BitVec.ofNat 64 (f 8 8) };
          (v.part p).stores.foldl (fun w e => w.updStore p e.1 fun t => t.put 7 1 (t.n 7 1 ||| 4)) v) ∧
        ((s.part p).migration = 1 → f 8 8 % 4096 = 0 → f 16 8 % 4096 = 0 → onlyFields b [(0, 1), (8, 8), (16, 8)] = true →
          let r := (s.setMail mb { s.mailOf mb with cmd := 0x21, tag := tag.toNat }).migRound p (f 8 8) (f 16 8)
          exec (.migrateRound mb tag) s = .next (r.1.mailEnd mb tag.toNat 0 r.2)) ∧
        ((s.part p).migration = 1 → onlyFields b [(0, 1)] = true →
          ∃ u, exec (.migratePause mb tag false) s = .next u ∧ (u.part p).migration = 2 ∧ u.mail.state = 1 ∧ u.mail.cmd = 0x22 ∧ u.mail.part = p ∧
            ∀ k ∈ s.partCores p, ∀ c < 4, (s.ctx (4 * k + c)).unit.isSome = true → (u.ctx (4 * k + c)).preempt = true) ∧
        (∀ n, (s.part p).migration = 2 → f 8 8 % 4096 = 0 → f 16 8 % 4096 = 0 → (Config.freeWord s.freeCtr).toNat % 2 ^ 32 = n → n * 4096 ≤ f 16 8 →
          onlyFields b [(0, 1), (8, 8), (16, 8)] = true → ∃ u, exec (.migrateSave mb tag) s = .next u ∧ (u.part p).migration = 3 ∧
            (∃ i, Tab.get none u.images (f 8 8) = some i ∧ i.p = p ∧ i.log2 = (s.shroud p).partLog2 ∧
              i.launches.map (·.2) = s.launches.filter fun l => l.p == p && l.stage != .final) ∧ u.mail.state = 2 ∧ u.mail.answer = n) ∧
        (∀ i, (s.part p).migration = 0 → s.imageAt (f 8 8) (f 16 8) = some i → (s.shroud p).partLog2 = i.log2 →
          runs (.migrateRestore mb tag) 0x24 [(0, 1), (8, 8), (16, 8)] fun u =>
            { u.restoreImage p i with images := Tab.set none u.images (f 8 8) none }))

/-- R360, R373 to R376, R380 to R384, R389, R390, R392: the host takes notices, flips pages, reads and writes them in host bias, a write of a
page that cannot flip yet waiting for its flip, and its writes of the package's registers are taken; a narrow read gives all ones, a
narrow or misaligned write at LAUNCH is counted; a paused partition that has come to rest ends its command. Registers lie behind the
CXL.io stream (log entry 94). -/
def Obligations.HostEvents : Prop :=
  ∀ (s : State) (mb : Mbox) (p : BitVec 3) (page : BitVec 23) (v : Word),
    let q := p.toNat
    let x := s.part q
    let frame := q * 2 ^ 20 + page.toNat
    let flipping := x.flips.any fun f => f.1 == frame
    let word (page : Nat) (err busy : Bool) : Word := BitVec.ofNat 64 (page * 2 ^ 24 + err.toNat * 8 + busy.toNat * 4)
    (s.mboxExists mb = true → (s.ring mb).held = [] → ∃ u, exec (.noteHeadWrite mb v) s = .next u ∧ (u.ring mb).head = v ∧ u.mem = s.mem) ∧
    (s.mboxExists (.vf p) = true → x.biasReg.toNat.testBit 2 = false → page.toNat < s.partSize q * 2 ^ 20 →
      let begun (toHost : Bool) : State := (s.updPart q fun y => { y with biasReg := word page.toNat false true, biasRun := some page.toNat }).updPart q fun y =>
        { y with flips := y.flips ++ [(frame, toHost)] }
      (x.hostBias.contains frame = false → exec (.biasToHost p page) s = .next (begun true)) ∧
      (x.hostBias.contains frame = true → exec (.biasToDevice p page) s = .next (begun false))) ∧
    (∀ toHost, x.flips.find? (fun f => f.1 == frame) = some (frame, toHost) → s.copyInside frame = false → (toHost = false → s.memFailed = false) →
      ∃ u, exec (.biasFlipEffect p page) s = .next u ∧ (u.part q).hostBias.contains frame = toHost ∧
        (toHost = true → ∀ w ∈ (u.part q).hostWaits, w.1 / 65536 ≠ page.toNat)) ∧
    (∀ (off : Nat) (bs : List Byte), off + bs.length ≤ 65536 → off < 65536 → s.partOpen q = true → s.memFailed = false →
      page.toNat < s.partSize q * 2 ^ 20 → flipping = false →
      let same (u : State) : Prop := u = { s with parts := u.parts } ∧ ∀ j, u.part j = s.part j
      (x.hostBias.contains frame = true → (∀ w ∈ x.hostWaits, w.1 / 65536 ≠ page.toNat) →
        (∃ u, exec (.hostCxlMemAccess p (page.toNat * 65536 + off) none) s = .next u ∧ same u) ∧
        (∃ u, exec (.hostCxlMemAccess p (page.toNat * 65536 + off) (some bs)) s =
          .next (u.homeStore (ctl q) (q * 2 ^ 36 + (page.toNat * 65536 + off)) bs) ∧ same u)) ∧
      (x.hostBias.contains frame = false → s.copyInside frame = true →
        ∃ u, exec (.hostCxlMemAccess p (page.toNat * 65536 + off) (some bs)) s = .next u ∧ u.mem = s.mem ∧
          (u.part q).flips = x.flips ++ [(frame, true)] ∧ (u.part q).hostWaits = x.hostWaits ++ [(page.toNat * 65536 + off, bs)])) ∧
    exec (.hostSnoop v) s = .next s ∧
    (s.powered = true → s.boot ≠ 0 → s.ioFailed = false → exec .pksStatRead s = .next { s with hostRead := s.pksStat, hot := false }) ∧
    (s.mboxExists .pf = true →
      exec (.registerWrite .pf 0x1008 ⟨8, v⟩) s = .next { s with plimit := BitVec.ofNat 16 (max 600 (min 2200 (v.toNat % 65536))) } ∧
      exec (.registerWrite .pf 0x2008 ⟨8, v⟩) s = .next { s with mail := { s.mail with arg := v } } ∧
      (∃ u, exec (.registerWrite .pf 0x3000 ⟨8, v⟩) s = .next u ∧ u.registerRead .pf 0x3000 8 = (v &&& 0xFFFFFFFFFFFFF000)) ∧
      exec (.registerWrite .pf 0x0000 ⟨8, v⟩) s = .next s ∧
      ∀ off n, n.toNat < 8 → exec (.registerWrite .pf off ⟨n, v⟩) s = .next s) ∧
    (∀ o n, o % 8 ≠ 0 ∨ n < 8 → s.registerRead mb o n = BitVec.allOnes 64) ∧
    (s.mboxExists (.vf p) = true → exec (.registerWrite (.vf p) 0 ⟨8, v⟩) s = exec (.launchWindowStore p v) s ∧
      ∀ (off : BitVec 16) (n : BitVec 4), off.toNat < 8 → 1 ≤ n.toNat → off ≠ 0 ∨ n.toNat < 8 →
        exec (.registerWrite (.vf p) off ⟨n, v⟩) s = .next (s.updPart q fun y => { y with dropped := min 65535 (y.dropped + 1) })) ∧
    (∀ tag, s.mail.state = 1 → s.mail.cmd = 0x22 → s.pauseDone s.mail.part = true →
      exec (.migratePause .pf tag true) s = .next ((s.withdrawPods s.mail.part).mailEnd .pf s.mail.tag 0 0))

/-! ### Links, keys, power -/

/-- R374, R386, R387, R391, R394: flits in order are delivered, those that fail their CRC counted, a link of this chip goes down and comes
up, one elsewhere is known as down until it is up, a timebase goes toward
its master's and never past it, sessions open and end, keys are programmed, run and stop inside the physical function's session, a
report is signed, a failed stream has no keys. -/
def Obligations.LinkEvents : Prop :=
  ∀ (s : State) (port : BitVec 3) (fn : BitVec 4) (stream : IdeStream) (tx set : Bool) (key nonce : BitVec 256),
    let i := port.toNat
    let x := s.port i
    let y := s.ideOf stream
    (i < 6 → x.up = true → x.fails < 8 → ∀ (body : BitVec 1984) (crc : BitVec 64) (seq : BitVec 32),
      (crc = Config.crc64 body → seq = x.next → exec (.zellenFlitReceive port seq body crc) s =
        .next (s.setPort i { x with fails := 0, next := x.next + 1, delivered := x.delivered ++ [body] })) ∧
      (crc = Config.crc64 body → seq ≠ x.next → exec (.zellenFlitReceive port seq body crc) s = .next (s.setPort i { x with fails := 0 })) ∧
      (crc ≠ Config.crc64 body → exec (.zellenFlitReceive port seq body crc) s = .next (s.setPort i { x with fails := x.fails + 1, naks := x.naks + 1 }))) ∧
    (i < 6 → (x.up = true → ∃ u, exec (.zellenLinkDown ⟨Config.chipId, port⟩) s = .next u ∧ u.port i = { x with up := false, fails := 0 }) ∧
      (∃ u, exec (.zellenLinkUp ⟨Config.chipId, port⟩) s = .next u ∧ u.port i = { x with up := true, fails := 0 }) ∧
      ∀ chip, chip ≠ Config.chipId → let l := portLink chip.toNat i;
        (s.linkUp l = true → l.1 ≠ Config.chipId.toNat → nextChip l.1 l.2 true ≠ Config.chipId.toNat →
          ∃ u, exec (.zellenLinkDown ⟨chip, port⟩) s = .next u ∧ u.linkUp l = false ∧ u.ports = s.ports) ∧
        exec (.zellenLinkUp ⟨chip, port⟩) s = .next { s with links := s.links.filter fun m => m != l }) ∧
    (∀ value : Word, s.chipMaster ≠ Config.chipId → s.timebase.toNat < value.toNat →
      ∃ u, exec (.timeSyncFlit s.chipMaster value) s = .next u ∧ s.timebase.toNat ≤ u.timebase.toNat ∧ u.timebase.toNat ≤ value.toNat ∧ u.mem = s.mem) ∧
    (∀ auth, s.fnExists fn.toNat = true → s.boot = 0xFF →
      exec (.spdmSessionOpen fn auth) s = .next { s with spdm := (s.spdm.filter fun e => e.1 != fn.toNat) ++ [(fn.toNat, auth)] }) ∧
    (∃ u, exec (.spdmSessionEnd fn) s = .next u ∧ u.spdm = (s.spdm.filter fun e => e.1 != fn.toNat) ∧
      u.ide = if (s.spdm.any fun e => e.1 == fn.toNat) ∧ fn = 0 then s.keysGone.ide else s.ide) ∧
    exec (.ideKmQuery fn stream) s = .next s ∧
    (∃ u, exec .linkReset s = .next u ∧ u = { s with ide := u.ide } ∧
      ∀ st, (u.ideOf st).keys = [] ∧ (u.ideOf st).secure = false ∧ (u.ideOf st).failed = (s.ideOf st).failed) ∧
    ((s.spdm.any fun e => e.1 == 0) = true →
      (∃ u, exec (.ideKmKeyProg 0 stream tx set key) s = .next u ∧ (tx, set, key) ∈ (u.ideOf stream).keys ∧
        ∀ k, (tx, set, k) ∈ (u.ideOf stream).keys → k = key) ∧
      ((∃ k, (tx, set, k) ∈ y.keys) → ∃ u, exec (.ideKmKeySetGo 0 stream tx set) s = .next u ∧ (u.ideOf stream).failed = false ∧
        (if tx then (u.ideOf stream).txSet else (u.ideOf stream).rxSet) = some set ∧
        (u.ideOf stream).secure = ((u.ideOf stream).txSet.isSome && (u.ideOf stream).rxSet.isSome)) ∧
      ((if tx then y.txSet else y.rxSet) = some set → ∃ u, exec (.ideKmKeySetStop 0 stream tx set) s = .next u ∧
        (u.ideOf stream).secure = false ∧ (if tx then (u.ideOf stream).txSet else (u.ideOf stream).rxSet) = none)) ∧
    (fn ≠ 0 → s.fnExists fn.toNat = true → (s.part (fn.toNat - 1)).migration ≠ 3 → ∃ u, exec (.spdmAttestationRequest fn nonce) s = .next u ∧ u = { s with doe := u.doe } ∧
      Tab.get [] u.doe fn.toNat = s.report (fn.toNat - 1) nonce ++
        Config.attestationSignature (fn.toNat - 1) (s.part (fn.toNat - 1)).keyGen (digestOf (s.report (fn.toNat - 1) nonce))) ∧
    (y.secure = true → ∃ u, exec (.ideIntegrityFailure stream) s = .next u ∧ (u.ideOf stream).secure = false ∧ (u.ideOf stream).keys = [] ∧
      (u.ideOf stream).failed = true ∧ ∀ a b, stream = .io a → (u.ideOf (.io b)).failed = true)

/-- R237, R385, R390, R392, R393, R395, R396: bring-up runs to boot 0xFF with a good image, HBM and a core, its maps of spares and its links
as they were found, and stops where a step fails, with no core in service at 4; a package reset and the loss of power leave contexts,
cores and HBM as after reset. That HEALTH takes core health, maps and quarantined ways with it, and the pool, host memory and the flash
stay, is DEDUCED (log entry 51); HBM then reads zero (log entries 2 and 51). Above the power limit, and from 105 °C, clocks fall in their
range, the most loaded shrouds first; at 120 °C the shrouds are held in reset; below both limits clocks rise. -/
def Obligations.PowerEvents : Prop :=
  ∀ (s : State) (bad reefed : BitVec 32) (ports : BitVec 6) (poolPorts : BitVec 2) (temp : BitVec 8) (watts : BitVec 16)
    (loads clocks : List (BitVec 8)),
    let measured (u : State) : Prop := ∀ k < 8, (u.shroud k).watts = match loads[k]? with | some w => w | none => (s.shroud k).watts
    let fall (k : Nat) : Nat := max 18 (min (s.shroud k).clk.toNat (clocks.getD k 36).toNat)
    let lowered (u : State) : Prop := measured u ∧ u.throttled = ((List.range 8).any fun k => decide ((u.shroud k).clk.toNat < 36)) ∧
      (∀ k < 8, u.shroud k = { s.shroud k with clk := (u.shroud k).clk, watts := (u.shroud k).watts } ∧
        ((u.shroud k).clk = (s.shroud k).clk ∨ (u.shroud k).clk = BitVec.ofNat 8 (fall k))) ∧
      (∀ j < 8, ∀ k < 8, (u.shroud k).watts.toNat < (u.shroud j).watts.toNat → (u.shroud k).clk ≠ (s.shroud k).clk →
        (u.shroud j).clk = BitVec.ofNat 8 (fall j)) ∧
      ((∀ k < 8, (s.shroud k).clk.toNat ≤ 18 ∨ (clocks.getD k 36).toNat < (s.shroud k).clk.toNat) → ∀ k < 8, (u.shroud k).clk = BitVec.ofNat 8 (fall k))
    (¬(s.powered = true ∧ s.boot ≠ 0) →
      if imageOk s.flashImage then
        (∀ maps : List (BitVec 5 × List (BitVec 9) × List (BitVec 9) × BitVec 9),
          (∀ m ∈ maps, mapsOk (m.2.1.map (·.toNat)) (m.2.2.1.map (·.toNat)) m.2.2.2.toNat = true) →
          (bad ≠ 0xFFFFFFFF → ∃ u, exec (.powerOn true bad reefed ⟨maps, ports, poolPorts⟩) s = .next u ∧ u.boot = 0xFF ∧ u.powered = true ∧
            u.fwVersion = Config.imageVersion s.flashImage ∧ (∀ i < 6, (u.port i).up = ports.getLsbD i) ∧ u.poolUp = poolPorts ∧
            (∀ k < 32, (u.core k).health = if bad.getLsbD k then .out else if reefed.getLsbD k then .reefed else .whole) ∧
            ∀ m, maps = [m] → (u.core m.1.toNat).ckCol = m.2.2.2.toNat ∧ (u.core m.1.toNat).rowMap = mapTab (m.2.1.map (·.toNat)) ∧
              (u.core m.1.toNat).colMap = mapTab (m.2.2.1.map (·.toNat))) ∧
          (bad = 0xFFFFFFFF → ∃ u, exec (.powerOn true bad reefed ⟨maps, ports, poolPorts⟩) s = .next u ∧ u.boot = 4) ∧
          ∃ u, exec (.powerOn false bad reefed ⟨maps, ports, poolPorts⟩) s = .next u ∧ u.boot = 3)
      else exec (.powerOn true bad reefed ⟨[], ports, poolPorts⟩) s = .next { s with powered := true, boot := 2 }) ∧
    (∀ i ∈ [Instr.packageReset, .powerOff], s.powered = true → ∃ u, exec i s = .next u ∧ u.ctxs = [] ∧ u.cores = [] ∧ u.shrouds = [] ∧
      u.launches = [] ∧ u.boot = 0 ∧ u.fwFlash = s.fwFlash ∧ u.powered = decide (i = .packageReset) ∧
      ∀ a, Mem.read u.mem a = if a < hbmTop then 0 else Mem.read (Tab.keep (fun a _ => !decide (a < hbmTop)) s.mem) a) ∧
    (s.plimit.toNat < watts.toNat → ∃ u, exec (.powerLimitExceeded watts ⟨loads, clocks⟩) s = .next u ∧ u.power = watts ∧ lowered u) ∧
    (105 ≤ temp.toNat → ∃ u, exec (.thermalThrottle temp ⟨loads, clocks⟩) s = .next u ∧ u.temp = temp ∧ lowered u) ∧
    (120 ≤ temp.toNat → ∃ u, exec (.thermalStop temp) s = .next u ∧ u.stoppedByHeat = true ∧ u.hot = true) ∧
    (temp.toNat < 105 → watts.toNat ≤ s.plimit.toNat → ∃ u, exec (.throttlingEnd temp watts ⟨loads, clocks⟩) s = .next u ∧ u.power = watts ∧
      measured u ∧ ∀ k < 8, (u.shroud k).clk.toNat = match clocks[k]? with
        | some c => min 36 (max (s.shroud k).clk.toNat c.toNat)
        | none => (s.shroud k).clk.toNat)

/-! ### Headline results -/

/-- Decode and encode agree: every well-formed instruction that has an encoding is read back from the bundle that holds it alone, with
every operand at every value the encoding admits, under guard p0 and no pop (R8, R22 to R34). -/
def Obligations.DecodeOfEncode : Prop :=
  ∀ (i : Instr) (slot w n : Nat), i.wellFormed = true → encode i = some (slot, w) → encodeBundle i = some n →
    decodeTableWord 256 n = some i ∧ decodeBundle n = .ok ⟨0, n / 2 ^ 24 % 16, [(slot, 0, i)]⟩

/-- Every step keeps the memory's canonical form: addresses rise, and no byte is listed that an unlisted one reads as (log entry 2). -/
def Obligations.StepKeepsMemoryCanonical : Prop :=
  ∀ s t : State, s.MemWf → step s = .next t → t.MemWf
end

