-- ==== Sys2Proof/Laws/Tab.lean ====
section
/-! SUPPORT. Reading after writing, and the canonical form, of sparse tables and memories. -/

namespace Sys2Proof.Machine

theorem Tab.get_del_self {α : Type} (d : α) (t : Tab α) (i : Nat) : Tab.get d (Tab.del t i) i = d := by
  induction t with
  | nil => rfl
  | cons e t ih =>
    obtain ⟨k, v⟩ := e
    by_cases h : k = i <;> simp_all [Tab.del, Tab.get, List.filter_cons]

theorem Tab.get_del_ne {α : Type} (d : α) (t : Tab α) {i j : Nat} (h : i ≠ j) : Tab.get d (Tab.del t i) j = Tab.get d t j := by
  induction t with
  | nil => rfl
  | cons e t ih =>
    obtain ⟨k, v⟩ := e
    by_cases hk : k = i
    · subst hk; simp_all [Tab.del, Tab.get, List.filter_cons]
    · by_cases hj : k = j <;> simp_all [Tab.del, Tab.get, List.filter_cons]

@[simp] theorem Tab.get_set_self {α : Type} [DecidableEq α] (d : α) (t : Tab α) (i : Nat) (v : α) :
    Tab.get d (Tab.set d t i v) i = v := by
  induction t with
  | nil => by_cases h : v = d <;> simp [Tab.set, Tab.get, h]
  | cons e t ih =>
    obtain ⟨k, w⟩ := e
    by_cases h1 : i < k
    · have hk : k ≠ i := by omega
      by_cases h : v = d
      · simp only [Tab.set, if_pos h1, if_pos h, Tab.get, if_neg hk, Tab.get_del_self]; exact h.symm
      · simp [Tab.set, Tab.get, h1, h]
    · by_cases h2 : i = k
      · by_cases h : v = d
        · subst h2; simp only [Tab.set, if_neg h1, if_pos h, if_true, Tab.get_del_self]; exact h.symm
        · simp [Tab.set, Tab.get, h1, h, h2]
      · have hk : k ≠ i := fun e => h2 e.symm
        simp [Tab.set, Tab.get, h1, h2, hk, ih]

theorem Tab.get_set_ne {α : Type} [DecidableEq α] (d : α) (t : Tab α) {i j : Nat} (v : α) (h : i ≠ j) :
    Tab.get d (Tab.set d t i v) j = Tab.get d t j := by
  induction t with
  | nil => by_cases hv : v = d <;> simp [Tab.set, Tab.get, hv, h]
  | cons e t ih =>
    obtain ⟨k, w⟩ := e
    by_cases h1 : i < k
    · by_cases hv : v = d
      · simp [Tab.set, Tab.get, h1, hv, Tab.get_del_ne d t h]
      · simp [Tab.set, Tab.get, h1, hv, h]
    · by_cases h2 : i = k
      · by_cases hv : v = d
        · subst h2; simp [Tab.set, Tab.get, hv, h, Tab.get_del_ne d t h]
        · subst h2; simp [Tab.set, Tab.get, hv, h]
      · simp only [Tab.set, if_neg h1, if_neg h2, Tab.get, ih]

/-- Reading key `j` after writing key `i`. -/
theorem Tab.get_set {α : Type} [DecidableEq α] (d : α) (t : Tab α) (i j : Nat) (v : α) :
    Tab.get d (Tab.set d t i v) j = if i = j then v else Tab.get d t j := by
  by_cases h : i = j
  · subst h; simp
  · simp [h, Tab.get_set_ne d t v h]

theorem Tab.wfFrom_mono {α : Type} [DecidableEq α] (d : α) {t : Tab α} {a b : Nat} (h : b ≤ a) (w : Tab.wfFrom d a t = true) :
    Tab.wfFrom d b t = true := by
  cases t with
  | nil => rfl
  | cons e t => obtain ⟨k, v⟩ := e; simp_all [Tab.wfFrom]; omega

theorem Tab.wfFrom_filter {α : Type} [DecidableEq α] (d : α) (p : Nat × α → Bool) {t : Tab α} {a : Nat}
    (w : Tab.wfFrom d a t = true) : Tab.wfFrom d a (t.filter p) = true := by
  induction t generalizing a with
  | nil => rfl
  | cons e t ih =>
    obtain ⟨k, v⟩ := e
    simp only [Tab.wfFrom, Bool.and_eq_true] at w
    by_cases hp : p (k, v)
    · simp only [List.filter_cons, hp, if_true, Tab.wfFrom, Bool.and_eq_true]; exact ⟨w.1, ih w.2⟩
    · simp only [List.filter_cons, hp]
      exact Tab.wfFrom_mono d (by have := w.1.1; simp at this; omega) (ih w.2)

theorem Tab.wfFrom_set {α : Type} [DecidableEq α] (d : α) {t : Tab α} {a i : Nat} (v : α) (hi : a ≤ i)
    (w : Tab.wfFrom d a t = true) : Tab.wfFrom d a (Tab.set d t i v) = true := by
  induction t generalizing a with
  | nil => by_cases hv : v = d <;> simp [Tab.set, Tab.wfFrom, hv, hi]
  | cons e t ih =>
    obtain ⟨k, x⟩ := e
    have w0 := w
    simp only [Tab.wfFrom, Bool.and_eq_true, decide_eq_true_eq] at w
    by_cases h1 : i < k
    · by_cases hv : v = d
      · simp only [Tab.set, if_pos h1, if_pos hv, Tab.wfFrom, Bool.and_eq_true, decide_eq_true_eq]
        exact ⟨w.1, Tab.wfFrom_filter d _ w.2⟩
      · simp only [Tab.set, if_pos h1, if_neg hv, Tab.wfFrom, Bool.and_eq_true, decide_eq_true_eq]
        exact ⟨⟨hi, hv⟩, ⟨by omega, w.1.2⟩, w.2⟩
    · by_cases h2 : i = k
      · by_cases hv : v = d
        · simp only [Tab.set, if_neg h1, if_pos h2, if_pos hv]
          exact Tab.wfFrom_mono d (by omega) (Tab.wfFrom_filter d _ w.2)
        · simp only [Tab.set, if_neg h1, if_pos h2, if_neg hv, Tab.wfFrom, Bool.and_eq_true, decide_eq_true_eq]
          exact ⟨⟨hi, hv⟩, by subst h2; exact w.2⟩
      · simp only [Tab.set, if_neg h1, if_neg h2, Tab.wfFrom, Bool.and_eq_true, decide_eq_true_eq]
        exact ⟨w.1, ih (by omega) w.2⟩

theorem Tab.wf_set {α : Type} [DecidableEq α] (d : α) {t : Tab α} (i : Nat) (v : α) (w : Tab.wf d t = true) :
    Tab.wf d (Tab.set d t i v) = true := Tab.wfFrom_set d v (Nat.zero_le i) w

theorem Tab.wf_filter {α : Type} [DecidableEq α] (d : α) (p : Nat × α → Bool) {t : Tab α} (w : Tab.wf d t = true) :
    Tab.wf d (t.filter p) = true := Tab.wfFrom_filter d p w

theorem Tab.wf_keep {α : Type} [DecidableEq α] (d : α) (p : Nat → α → Bool) {t : Tab α} (w : Tab.wf d t = true) :
    Tab.wf d (Tab.keep p t) = true := Tab.wfFrom_filter d _ w

/-- A byte written reads back, and leaves every other byte alone. -/
theorem Mem.read_write (m : Tab Byte) (a b : Nat) (v : Byte) : Mem.read (Mem.write m a v) b = if a = b then v else Mem.read m b :=
  Tab.get_set 0 m a b v

theorem Mem.wf_write {m : Tab Byte} (a : Nat) (v : Byte) (w : Mem.wf m = true) : Mem.wf (Mem.write m a v) = true := Tab.wf_set 0 a v w

theorem Mem.wf_writeN {m : Tab Byte} (a n v : Nat) (w : Mem.wf m = true) : Mem.wf (Mem.writeN m a n v) = true := by
  induction n generalizing m a v with
  | zero => exact w
  | succ n ih => exact ih (a + 1) (v / 256) (Mem.wf_write a _ w)

theorem Mem.wf_writeRow {m : Tab Byte} (a : Nat) (r : Row) (w : Mem.wf m = true) : Mem.wf (Mem.writeRow m a r) = true :=
  Mem.wf_writeN a 256 r.toNat w

theorem Mem.wf_writeBytes {m : Tab Byte} (a : Nat) (bs : List Byte) (w : Mem.wf m = true) : Mem.wf (Mem.writeBytes m a bs) = true := by
  induction bs generalizing m a with
  | nil => exact w
  | cons b bs ih => exact ih (a + 1) (Mem.wf_write a b w)

theorem Mem.wf_keep {m : Tab Byte} (p : Nat → Byte → Bool) (w : Mem.wf m = true) : Mem.wf (Tab.keep p m) = true := Tab.wf_keep 0 p w

/-- Bytes written one by one. -/
theorem Mem.wf_foldl {m : Tab Byte} (bs : List (Nat × Byte)) (w : Mem.wf m = true) :
    Mem.wf (bs.foldl (fun m e => Mem.write m e.1 e.2) m) = true := by
  induction bs generalizing m with
  | nil => exact w
  | cons b bs ih => exact ih (Mem.wf_write b.1 b.2 w)

/-- A byte outside the n written reads as before. -/
theorem Mem.read_writeN_outside (m : Tab Byte) (a n v b : Nat) (h : b < a ∨ a + n ≤ b) : Mem.read (Mem.writeN m a n v) b = Mem.read m b := by
  induction n generalizing m a v with
  | zero => rfl
  | succ n ih =>
    rw [Mem.writeN, ih _ (a + 1) (v / 256) (by omega), Mem.read_write, if_neg (by omega)]

/-- Byte i of the n written. -/
theorem Mem.read_writeN_inside (m : Tab Byte) (a n v i : Nat) (h : i < n) :
    Mem.read (Mem.writeN m a n v) (a + i) = BitVec.ofNat 8 (v / 256 ^ i) := by
  induction n generalizing m a v i with
  | zero => omega
  | succ n ih =>
    rw [Mem.writeN]
    cases i with
    | zero => rw [Nat.add_zero, Mem.read_writeN_outside _ _ _ _ _ (by omega), Mem.read_write]; simp
    | succ i =>
      have := ih (Mem.write m a (BitVec.ofNat 8 v)) (a + 1) (v / 256) i (by omega)
      rw [show a + (i + 1) = a + 1 + i by omega, this, Nat.div_div_eq_div_mul, Nat.pow_succ']

end Sys2Proof.Machine
end

