-- ==== Sys2Proof/Laws/State.lean ====
section
/-! SUPPORT. What each update of the state leaves alone, one lemma per field per update, and what it reads as after. -/

namespace Sys2Proof.Machine

@[simp] theorem State.setCtx_timebase (s : State) (g : Nat) (c : Ctx) : (s.setCtx g c).timebase = s.timebase := rfl
@[simp] theorem State.setCtx_mem (s : State) (g : Nat) (c : Ctx) : (s.setCtx g c).mem = s.mem := rfl
@[simp] theorem State.setCtx_cores (s : State) (g : Nat) (c : Ctx) : (s.setCtx g c).cores = s.cores := rfl
@[simp] theorem State.setCtx_shrouds (s : State) (g : Nat) (c : Ctx) : (s.setCtx g c).shrouds = s.shrouds := rfl
@[simp] theorem State.setCtx_parts (s : State) (g : Nat) (c : Ctx) : (s.setCtx g c).parts = s.parts := rfl
@[simp] theorem State.setCtx_launches (s : State) (g : Nat) (c : Ctx) : (s.setCtx g c).launches = s.launches := rfl
@[simp] theorem State.setCtx_nextLaunch (s : State) (g : Nat) (c : Ctx) : (s.setCtx g c).nextLaunch = s.nextLaunch := rfl
@[simp] theorem State.setCtx_threads (s : State) (g : Nat) (c : Ctx) : (s.setCtx g c).threads = s.threads := rfl
@[simp] theorem State.setCtx_nextThread (s : State) (g : Nat) (c : Ctx) : (s.setCtx g c).nextThread = s.nextThread := rfl
@[simp] theorem State.setCtx_reqs (s : State) (g : Nat) (c : Ctx) : (s.setCtx g c).reqs = s.reqs := rfl
@[simp] theorem State.setCtx_nextReq (s : State) (g : Nat) (c : Ctx) : (s.setCtx g c).nextReq = s.nextReq := rfl
@[simp] theorem State.setCtx_loads (s : State) (g : Nat) (c : Ctx) : (s.setCtx g c).loads = s.loads := rfl
@[simp] theorem State.setCtx_outbox (s : State) (g : Nat) (c : Ctx) : (s.setCtx g c).outbox = s.outbox := rfl
@[simp] theorem State.setCtx_remote (s : State) (g : Nat) (c : Ctx) : (s.setCtx g c).remote = s.remote := rfl
@[simp] theorem State.setCtx_chipMaster (s : State) (g : Nat) (c : Ctx) : (s.setCtx g c).chipMaster = s.chipMaster := rfl
@[simp] theorem State.setCtx_healthReg (s : State) (g : Nat) (c : Ctx) : (s.setCtx g c).healthReg = s.healthReg := rfl
@[simp] theorem State.setCtx_limit (s : State) (g : Nat) (c : Ctx) : (s.setCtx g c).limit = s.limit := rfl
@[simp] theorem State.setCtx_power (s : State) (g : Nat) (c : Ctx) : (s.setCtx g c).power = s.power := rfl
@[simp] theorem State.setCtx_temp (s : State) (g : Nat) (c : Ctx) : (s.setCtx g c).temp = s.temp := rfl
@[simp] theorem State.setCtx_throttled (s : State) (g : Nat) (c : Ctx) : (s.setCtx g c).throttled = s.throttled := rfl
@[simp] theorem State.setCtx_hot (s : State) (g : Nat) (c : Ctx) : (s.setCtx g c).hot = s.hot := rfl
@[simp] theorem State.setCtx_boot (s : State) (g : Nat) (c : Ctx) : (s.setCtx g c).boot = s.boot := rfl
@[simp] theorem State.setCtx_plimit (s : State) (g : Nat) (c : Ctx) : (s.setCtx g c).plimit = s.plimit := rfl
@[simp] theorem State.setCtx_mail (s : State) (g : Nat) (c : Ctx) : (s.setCtx g c).mail = s.mail := rfl
@[simp] theorem State.setCtx_notes (s : State) (g : Nat) (c : Ctx) : (s.setCtx g c).notes = s.notes := rfl
@[simp] theorem State.setCtx_pools (s : State) (g : Nat) (c : Ctx) : (s.setCtx g c).pools = s.pools := rfl
@[simp] theorem State.setCtx_poolUp (s : State) (g : Nat) (c : Ctx) : (s.setCtx g c).poolUp = s.poolUp := rfl
@[simp] theorem State.setCtx_ports (s : State) (g : Nat) (c : Ctx) : (s.setCtx g c).ports = s.ports := rfl
@[simp] theorem State.setCtx_links (s : State) (g : Nat) (c : Ctx) : (s.setCtx g c).links = s.links := rfl
@[simp] theorem State.setCtx_ide (s : State) (g : Nat) (c : Ctx) : (s.setCtx g c).ide = s.ide := rfl
@[simp] theorem State.setCtx_spdm (s : State) (g : Nat) (c : Ctx) : (s.setCtx g c).spdm = s.spdm := rfl
@[simp] theorem State.setCtx_doe (s : State) (g : Nat) (c : Ctx) : (s.setCtx g c).doe = s.doe := rfl
@[simp] theorem State.setCtx_retired (s : State) (g : Nat) (c : Ctx) : (s.setCtx g c).retired = s.retired := rfl
@[simp] theorem State.setCtx_retiring (s : State) (g : Nat) (c : Ctx) : (s.setCtx g c).retiring = s.retiring := rfl
@[simp] theorem State.setCtx_images (s : State) (g : Nat) (c : Ctx) : (s.setCtx g c).images = s.images := rfl
@[simp] theorem State.setCtx_fwFlash (s : State) (g : Nat) (c : Ctx) : (s.setCtx g c).fwFlash = s.fwFlash := rfl
@[simp] theorem State.setCtx_fwVersion (s : State) (g : Nat) (c : Ctx) : (s.setCtx g c).fwVersion = s.fwVersion := rfl
@[simp] theorem State.setCtx_mslots (s : State) (g : Nat) (c : Ctx) : (s.setCtx g c).mslots = s.mslots := rfl
@[simp] theorem State.setCtx_powered (s : State) (g : Nat) (c : Ctx) : (s.setCtx g c).powered = s.powered := rfl
@[simp] theorem State.setCtx_stoppedByHeat (s : State) (g : Nat) (c : Ctx) : (s.setCtx g c).stoppedByHeat = s.stoppedByHeat := rfl
@[simp] theorem State.setCtx_hostRead (s : State) (g : Nat) (c : Ctx) : (s.setCtx g c).hostRead = s.hostRead := rfl
@[simp] theorem State.setCtx_agenda (s : State) (g : Nat) (c : Ctx) : (s.setCtx g c).agenda = s.agenda := rfl
@[simp] theorem State.setCtx_turn (s : State) (g : Nat) (c : Ctx) : (s.setCtx g c).turn = s.turn := rfl
@[simp] theorem State.setCtx_phase (s : State) (g : Nat) (c : Ctx) : (s.setCtx g c).phase = s.phase := rfl
@[simp] theorem State.setCtx_freeCtr (s : State) (g : Nat) (c : Ctx) : (s.setCtx g c).freeCtr = s.freeCtr := rfl
@[simp] theorem State.updCtx_timebase (s : State) (g : Nat) (f : Ctx → Ctx) : (s.updCtx g f).timebase = s.timebase := rfl
@[simp] theorem State.updCtx_mem (s : State) (g : Nat) (f : Ctx → Ctx) : (s.updCtx g f).mem = s.mem := rfl
@[simp] theorem State.updCtx_cores (s : State) (g : Nat) (f : Ctx → Ctx) : (s.updCtx g f).cores = s.cores := rfl
@[simp] theorem State.updCtx_shrouds (s : State) (g : Nat) (f : Ctx → Ctx) : (s.updCtx g f).shrouds = s.shrouds := rfl
@[simp] theorem State.updCtx_parts (s : State) (g : Nat) (f : Ctx → Ctx) : (s.updCtx g f).parts = s.parts := rfl
@[simp] theorem State.updCtx_launches (s : State) (g : Nat) (f : Ctx → Ctx) : (s.updCtx g f).launches = s.launches := rfl
@[simp] theorem State.updCtx_nextLaunch (s : State) (g : Nat) (f : Ctx → Ctx) : (s.updCtx g f).nextLaunch = s.nextLaunch := rfl
@[simp] theorem State.updCtx_threads (s : State) (g : Nat) (f : Ctx → Ctx) : (s.updCtx g f).threads = s.threads := rfl
@[simp] theorem State.updCtx_nextThread (s : State) (g : Nat) (f : Ctx → Ctx) : (s.updCtx g f).nextThread = s.nextThread := rfl
@[simp] theorem State.updCtx_reqs (s : State) (g : Nat) (f : Ctx → Ctx) : (s.updCtx g f).reqs = s.reqs := rfl
@[simp] theorem State.updCtx_nextReq (s : State) (g : Nat) (f : Ctx → Ctx) : (s.updCtx g f).nextReq = s.nextReq := rfl
@[simp] theorem State.updCtx_loads (s : State) (g : Nat) (f : Ctx → Ctx) : (s.updCtx g f).loads = s.loads := rfl
@[simp] theorem State.updCtx_outbox (s : State) (g : Nat) (f : Ctx → Ctx) : (s.updCtx g f).outbox = s.outbox := rfl
@[simp] theorem State.updCtx_remote (s : State) (g : Nat) (f : Ctx → Ctx) : (s.updCtx g f).remote = s.remote := rfl
@[simp] theorem State.updCtx_chipMaster (s : State) (g : Nat) (f : Ctx → Ctx) : (s.updCtx g f).chipMaster = s.chipMaster := rfl
@[simp] theorem State.updCtx_healthReg (s : State) (g : Nat) (f : Ctx → Ctx) : (s.updCtx g f).healthReg = s.healthReg := rfl
@[simp] theorem State.updCtx_limit (s : State) (g : Nat) (f : Ctx → Ctx) : (s.updCtx g f).limit = s.limit := rfl
@[simp] theorem State.updCtx_power (s : State) (g : Nat) (f : Ctx → Ctx) : (s.updCtx g f).power = s.power := rfl
@[simp] theorem State.updCtx_temp (s : State) (g : Nat) (f : Ctx → Ctx) : (s.updCtx g f).temp = s.temp := rfl
@[simp] theorem State.updCtx_throttled (s : State) (g : Nat) (f : Ctx → Ctx) : (s.updCtx g f).throttled = s.throttled := rfl
@[simp] theorem State.updCtx_hot (s : State) (g : Nat) (f : Ctx → Ctx) : (s.updCtx g f).hot = s.hot := rfl
@[simp] theorem State.updCtx_boot (s : State) (g : Nat) (f : Ctx → Ctx) : (s.updCtx g f).boot = s.boot := rfl
@[simp] theorem State.updCtx_plimit (s : State) (g : Nat) (f : Ctx → Ctx) : (s.updCtx g f).plimit = s.plimit := rfl
@[simp] theorem State.updCtx_mail (s : State) (g : Nat) (f : Ctx → Ctx) : (s.updCtx g f).mail = s.mail := rfl
@[simp] theorem State.updCtx_notes (s : State) (g : Nat) (f : Ctx → Ctx) : (s.updCtx g f).notes = s.notes := rfl
@[simp] theorem State.updCtx_pools (s : State) (g : Nat) (f : Ctx → Ctx) : (s.updCtx g f).pools = s.pools := rfl
@[simp] theorem State.updCtx_poolUp (s : State) (g : Nat) (f : Ctx → Ctx) : (s.updCtx g f).poolUp = s.poolUp := rfl
@[simp] theorem State.updCtx_ports (s : State) (g : Nat) (f : Ctx → Ctx) : (s.updCtx g f).ports = s.ports := rfl
@[simp] theorem State.updCtx_links (s : State) (g : Nat) (f : Ctx → Ctx) : (s.updCtx g f).links = s.links := rfl
@[simp] theorem State.updCtx_ide (s : State) (g : Nat) (f : Ctx → Ctx) : (s.updCtx g f).ide = s.ide := rfl
@[simp] theorem State.updCtx_spdm (s : State) (g : Nat) (f : Ctx → Ctx) : (s.updCtx g f).spdm = s.spdm := rfl
@[simp] theorem State.updCtx_doe (s : State) (g : Nat) (f : Ctx → Ctx) : (s.updCtx g f).doe = s.doe := rfl
@[simp] theorem State.updCtx_retired (s : State) (g : Nat) (f : Ctx → Ctx) : (s.updCtx g f).retired = s.retired := rfl
@[simp] theorem State.updCtx_retiring (s : State) (g : Nat) (f : Ctx → Ctx) : (s.updCtx g f).retiring = s.retiring := rfl
@[simp] theorem State.updCtx_images (s : State) (g : Nat) (f : Ctx → Ctx) : (s.updCtx g f).images = s.images := rfl
@[simp] theorem State.updCtx_fwFlash (s : State) (g : Nat) (f : Ctx → Ctx) : (s.updCtx g f).fwFlash = s.fwFlash := rfl
@[simp] theorem State.updCtx_fwVersion (s : State) (g : Nat) (f : Ctx → Ctx) : (s.updCtx g f).fwVersion = s.fwVersion := rfl
@[simp] theorem State.updCtx_mslots (s : State) (g : Nat) (f : Ctx → Ctx) : (s.updCtx g f).mslots = s.mslots := rfl
@[simp] theorem State.updCtx_powered (s : State) (g : Nat) (f : Ctx → Ctx) : (s.updCtx g f).powered = s.powered := rfl
@[simp] theorem State.updCtx_stoppedByHeat (s : State) (g : Nat) (f : Ctx → Ctx) : (s.updCtx g f).stoppedByHeat = s.stoppedByHeat := rfl
@[simp] theorem State.updCtx_hostRead (s : State) (g : Nat) (f : Ctx → Ctx) : (s.updCtx g f).hostRead = s.hostRead := rfl
@[simp] theorem State.updCtx_agenda (s : State) (g : Nat) (f : Ctx → Ctx) : (s.updCtx g f).agenda = s.agenda := rfl
@[simp] theorem State.updCtx_turn (s : State) (g : Nat) (f : Ctx → Ctx) : (s.updCtx g f).turn = s.turn := rfl
@[simp] theorem State.updCtx_phase (s : State) (g : Nat) (f : Ctx → Ctx) : (s.updCtx g f).phase = s.phase := rfl
@[simp] theorem State.updCtx_freeCtr (s : State) (g : Nat) (f : Ctx → Ctx) : (s.updCtx g f).freeCtr = s.freeCtr := rfl
@[simp] theorem State.setCore_timebase (s : State) (k : Nat) (c : Core) : (s.setCore k c).timebase = s.timebase := rfl
@[simp] theorem State.setCore_mem (s : State) (k : Nat) (c : Core) : (s.setCore k c).mem = s.mem := rfl
@[simp] theorem State.setCore_ctxs (s : State) (k : Nat) (c : Core) : (s.setCore k c).ctxs = s.ctxs := rfl
@[simp] theorem State.setCore_shrouds (s : State) (k : Nat) (c : Core) : (s.setCore k c).shrouds = s.shrouds := rfl
@[simp] theorem State.setCore_parts (s : State) (k : Nat) (c : Core) : (s.setCore k c).parts = s.parts := rfl
@[simp] theorem State.setCore_launches (s : State) (k : Nat) (c : Core) : (s.setCore k c).launches = s.launches := rfl
@[simp] theorem State.setCore_nextLaunch (s : State) (k : Nat) (c : Core) : (s.setCore k c).nextLaunch = s.nextLaunch := rfl
@[simp] theorem State.setCore_threads (s : State) (k : Nat) (c : Core) : (s.setCore k c).threads = s.threads := rfl
@[simp] theorem State.setCore_nextThread (s : State) (k : Nat) (c : Core) : (s.setCore k c).nextThread = s.nextThread := rfl
@[simp] theorem State.setCore_reqs (s : State) (k : Nat) (c : Core) : (s.setCore k c).reqs = s.reqs := rfl
@[simp] theorem State.setCore_nextReq (s : State) (k : Nat) (c : Core) : (s.setCore k c).nextReq = s.nextReq := rfl
@[simp] theorem State.setCore_loads (s : State) (k : Nat) (c : Core) : (s.setCore k c).loads = s.loads := rfl
@[simp] theorem State.setCore_outbox (s : State) (k : Nat) (c : Core) : (s.setCore k c).outbox = s.outbox := rfl
@[simp] theorem State.setCore_remote (s : State) (k : Nat) (c : Core) : (s.setCore k c).remote = s.remote := rfl
@[simp] theorem State.setCore_chipMaster (s : State) (k : Nat) (c : Core) : (s.setCore k c).chipMaster = s.chipMaster := rfl
@[simp] theorem State.setCore_healthReg (s : State) (k : Nat) (c : Core) : (s.setCore k c).healthReg = s.healthReg := rfl
@[simp] theorem State.setCore_limit (s : State) (k : Nat) (c : Core) : (s.setCore k c).limit = s.limit := rfl
@[simp] theorem State.setCore_power (s : State) (k : Nat) (c : Core) : (s.setCore k c).power = s.power := rfl
@[simp] theorem State.setCore_temp (s : State) (k : Nat) (c : Core) : (s.setCore k c).temp = s.temp := rfl
@[simp] theorem State.setCore_throttled (s : State) (k : Nat) (c : Core) : (s.setCore k c).throttled = s.throttled := rfl
@[simp] theorem State.setCore_hot (s : State) (k : Nat) (c : Core) : (s.setCore k c).hot = s.hot := rfl
@[simp] theorem State.setCore_boot (s : State) (k : Nat) (c : Core) : (s.setCore k c).boot = s.boot := rfl
@[simp] theorem State.setCore_plimit (s : State) (k : Nat) (c : Core) : (s.setCore k c).plimit = s.plimit := rfl
@[simp] theorem State.setCore_mail (s : State) (k : Nat) (c : Core) : (s.setCore k c).mail = s.mail := rfl
@[simp] theorem State.setCore_notes (s : State) (k : Nat) (c : Core) : (s.setCore k c).notes = s.notes := rfl
@[simp] theorem State.setCore_pools (s : State) (k : Nat) (c : Core) : (s.setCore k c).pools = s.pools := rfl
@[simp] theorem State.setCore_poolUp (s : State) (k : Nat) (c : Core) : (s.setCore k c).poolUp = s.poolUp := rfl
@[simp] theorem State.setCore_ports (s : State) (k : Nat) (c : Core) : (s.setCore k c).ports = s.ports := rfl
@[simp] theorem State.setCore_links (s : State) (k : Nat) (c : Core) : (s.setCore k c).links = s.links := rfl
@[simp] theorem State.setCore_ide (s : State) (k : Nat) (c : Core) : (s.setCore k c).ide = s.ide := rfl
@[simp] theorem State.setCore_spdm (s : State) (k : Nat) (c : Core) : (s.setCore k c).spdm = s.spdm := rfl
@[simp] theorem State.setCore_doe (s : State) (k : Nat) (c : Core) : (s.setCore k c).doe = s.doe := rfl
@[simp] theorem State.setCore_retired (s : State) (k : Nat) (c : Core) : (s.setCore k c).retired = s.retired := rfl
@[simp] theorem State.setCore_retiring (s : State) (k : Nat) (c : Core) : (s.setCore k c).retiring = s.retiring := rfl
@[simp] theorem State.setCore_images (s : State) (k : Nat) (c : Core) : (s.setCore k c).images = s.images := rfl
@[simp] theorem State.setCore_fwFlash (s : State) (k : Nat) (c : Core) : (s.setCore k c).fwFlash = s.fwFlash := rfl
@[simp] theorem State.setCore_fwVersion (s : State) (k : Nat) (c : Core) : (s.setCore k c).fwVersion = s.fwVersion := rfl
@[simp] theorem State.setCore_mslots (s : State) (k : Nat) (c : Core) : (s.setCore k c).mslots = s.mslots := rfl
@[simp] theorem State.setCore_powered (s : State) (k : Nat) (c : Core) : (s.setCore k c).powered = s.powered := rfl
@[simp] theorem State.setCore_stoppedByHeat (s : State) (k : Nat) (c : Core) : (s.setCore k c).stoppedByHeat = s.stoppedByHeat := rfl
@[simp] theorem State.setCore_hostRead (s : State) (k : Nat) (c : Core) : (s.setCore k c).hostRead = s.hostRead := rfl
@[simp] theorem State.setCore_agenda (s : State) (k : Nat) (c : Core) : (s.setCore k c).agenda = s.agenda := rfl
@[simp] theorem State.setCore_turn (s : State) (k : Nat) (c : Core) : (s.setCore k c).turn = s.turn := rfl
@[simp] theorem State.setCore_phase (s : State) (k : Nat) (c : Core) : (s.setCore k c).phase = s.phase := rfl
@[simp] theorem State.setCore_freeCtr (s : State) (k : Nat) (c : Core) : (s.setCore k c).freeCtr = s.freeCtr := rfl
@[simp] theorem State.updCore_timebase (s : State) (k : Nat) (f : Core → Core) : (s.updCore k f).timebase = s.timebase := rfl
@[simp] theorem State.updCore_mem (s : State) (k : Nat) (f : Core → Core) : (s.updCore k f).mem = s.mem := rfl
@[simp] theorem State.updCore_ctxs (s : State) (k : Nat) (f : Core → Core) : (s.updCore k f).ctxs = s.ctxs := rfl
@[simp] theorem State.updCore_shrouds (s : State) (k : Nat) (f : Core → Core) : (s.updCore k f).shrouds = s.shrouds := rfl
@[simp] theorem State.updCore_parts (s : State) (k : Nat) (f : Core → Core) : (s.updCore k f).parts = s.parts := rfl
@[simp] theorem State.updCore_launches (s : State) (k : Nat) (f : Core → Core) : (s.updCore k f).launches = s.launches := rfl
@[simp] theorem State.updCore_nextLaunch (s : State) (k : Nat) (f : Core → Core) : (s.updCore k f).nextLaunch = s.nextLaunch := rfl
@[simp] theorem State.updCore_threads (s : State) (k : Nat) (f : Core → Core) : (s.updCore k f).threads = s.threads := rfl
@[simp] theorem State.updCore_nextThread (s : State) (k : Nat) (f : Core → Core) : (s.updCore k f).nextThread = s.nextThread := rfl
@[simp] theorem State.updCore_reqs (s : State) (k : Nat) (f : Core → Core) : (s.updCore k f).reqs = s.reqs := rfl
@[simp] theorem State.updCore_nextReq (s : State) (k : Nat) (f : Core → Core) : (s.updCore k f).nextReq = s.nextReq := rfl
@[simp] theorem State.updCore_loads (s : State) (k : Nat) (f : Core → Core) : (s.updCore k f).loads = s.loads := rfl
@[simp] theorem State.updCore_outbox (s : State) (k : Nat) (f : Core → Core) : (s.updCore k f).outbox = s.outbox := rfl
@[simp] theorem State.updCore_remote (s : State) (k : Nat) (f : Core → Core) : (s.updCore k f).remote = s.remote := rfl
@[simp] theorem State.updCore_chipMaster (s : State) (k : Nat) (f : Core → Core) : (s.updCore k f).chipMaster = s.chipMaster := rfl
@[simp] theorem State.updCore_healthReg (s : State) (k : Nat) (f : Core → Core) : (s.updCore k f).healthReg = s.healthReg := rfl
@[simp] theorem State.updCore_limit (s : State) (k : Nat) (f : Core → Core) : (s.updCore k f).limit = s.limit := rfl
@[simp] theorem State.updCore_power (s : State) (k : Nat) (f : Core → Core) : (s.updCore k f).power = s.power := rfl
@[simp] theorem State.updCore_temp (s : State) (k : Nat) (f : Core → Core) : (s.updCore k f).temp = s.temp := rfl
@[simp] theorem State.updCore_throttled (s : State) (k : Nat) (f : Core → Core) : (s.updCore k f).throttled = s.throttled := rfl
@[simp] theorem State.updCore_hot (s : State) (k : Nat) (f : Core → Core) : (s.updCore k f).hot = s.hot := rfl
@[simp] theorem State.updCore_boot (s : State) (k : Nat) (f : Core → Core) : (s.updCore k f).boot = s.boot := rfl
@[simp] theorem State.updCore_plimit (s : State) (k : Nat) (f : Core → Core) : (s.updCore k f).plimit = s.plimit := rfl
@[simp] theorem State.updCore_mail (s : State) (k : Nat) (f : Core → Core) : (s.updCore k f).mail = s.mail := rfl
@[simp] theorem State.updCore_notes (s : State) (k : Nat) (f : Core → Core) : (s.updCore k f).notes = s.notes := rfl
@[simp] theorem State.updCore_pools (s : State) (k : Nat) (f : Core → Core) : (s.updCore k f).pools = s.pools := rfl
@[simp] theorem State.updCore_poolUp (s : State) (k : Nat) (f : Core → Core) : (s.updCore k f).poolUp = s.poolUp := rfl
@[simp] theorem State.updCore_ports (s : State) (k : Nat) (f : Core → Core) : (s.updCore k f).ports = s.ports := rfl
@[simp] theorem State.updCore_links (s : State) (k : Nat) (f : Core → Core) : (s.updCore k f).links = s.links := rfl
@[simp] theorem State.updCore_ide (s : State) (k : Nat) (f : Core → Core) : (s.updCore k f).ide = s.ide := rfl
@[simp] theorem State.updCore_spdm (s : State) (k : Nat) (f : Core → Core) : (s.updCore k f).spdm = s.spdm := rfl
@[simp] theorem State.updCore_doe (s : State) (k : Nat) (f : Core → Core) : (s.updCore k f).doe = s.doe := rfl
@[simp] theorem State.updCore_retired (s : State) (k : Nat) (f : Core → Core) : (s.updCore k f).retired = s.retired := rfl
@[simp] theorem State.updCore_retiring (s : State) (k : Nat) (f : Core → Core) : (s.updCore k f).retiring = s.retiring := rfl
@[simp] theorem State.updCore_images (s : State) (k : Nat) (f : Core → Core) : (s.updCore k f).images = s.images := rfl
@[simp] theorem State.updCore_fwFlash (s : State) (k : Nat) (f : Core → Core) : (s.updCore k f).fwFlash = s.fwFlash := rfl
@[simp] theorem State.updCore_fwVersion (s : State) (k : Nat) (f : Core → Core) : (s.updCore k f).fwVersion = s.fwVersion := rfl
@[simp] theorem State.updCore_mslots (s : State) (k : Nat) (f : Core → Core) : (s.updCore k f).mslots = s.mslots := rfl
@[simp] theorem State.updCore_powered (s : State) (k : Nat) (f : Core → Core) : (s.updCore k f).powered = s.powered := rfl
@[simp] theorem State.updCore_stoppedByHeat (s : State) (k : Nat) (f : Core → Core) : (s.updCore k f).stoppedByHeat = s.stoppedByHeat := rfl
@[simp] theorem State.updCore_hostRead (s : State) (k : Nat) (f : Core → Core) : (s.updCore k f).hostRead = s.hostRead := rfl
@[simp] theorem State.updCore_agenda (s : State) (k : Nat) (f : Core → Core) : (s.updCore k f).agenda = s.agenda := rfl
@[simp] theorem State.updCore_turn (s : State) (k : Nat) (f : Core → Core) : (s.updCore k f).turn = s.turn := rfl
@[simp] theorem State.updCore_phase (s : State) (k : Nat) (f : Core → Core) : (s.updCore k f).phase = s.phase := rfl
@[simp] theorem State.updCore_freeCtr (s : State) (k : Nat) (f : Core → Core) : (s.updCore k f).freeCtr = s.freeCtr := rfl
@[simp] theorem State.setShroud_timebase (s : State) (k : Nat) (h : Shroud) : (s.setShroud k h).timebase = s.timebase := rfl
@[simp] theorem State.setShroud_mem (s : State) (k : Nat) (h : Shroud) : (s.setShroud k h).mem = s.mem := rfl
@[simp] theorem State.setShroud_ctxs (s : State) (k : Nat) (h : Shroud) : (s.setShroud k h).ctxs = s.ctxs := rfl
@[simp] theorem State.setShroud_cores (s : State) (k : Nat) (h : Shroud) : (s.setShroud k h).cores = s.cores := rfl
@[simp] theorem State.setShroud_parts (s : State) (k : Nat) (h : Shroud) : (s.setShroud k h).parts = s.parts := rfl
@[simp] theorem State.setShroud_launches (s : State) (k : Nat) (h : Shroud) : (s.setShroud k h).launches = s.launches := rfl
@[simp] theorem State.setShroud_nextLaunch (s : State) (k : Nat) (h : Shroud) : (s.setShroud k h).nextLaunch = s.nextLaunch := rfl
@[simp] theorem State.setShroud_threads (s : State) (k : Nat) (h : Shroud) : (s.setShroud k h).threads = s.threads := rfl
@[simp] theorem State.setShroud_nextThread (s : State) (k : Nat) (h : Shroud) : (s.setShroud k h).nextThread = s.nextThread := rfl
@[simp] theorem State.setShroud_reqs (s : State) (k : Nat) (h : Shroud) : (s.setShroud k h).reqs = s.reqs := rfl
@[simp] theorem State.setShroud_nextReq (s : State) (k : Nat) (h : Shroud) : (s.setShroud k h).nextReq = s.nextReq := rfl
@[simp] theorem State.setShroud_loads (s : State) (k : Nat) (h : Shroud) : (s.setShroud k h).loads = s.loads := rfl
@[simp] theorem State.setShroud_outbox (s : State) (k : Nat) (h : Shroud) : (s.setShroud k h).outbox = s.outbox := rfl
@[simp] theorem State.setShroud_remote (s : State) (k : Nat) (h : Shroud) : (s.setShroud k h).remote = s.remote := rfl
@[simp] theorem State.setShroud_chipMaster (s : State) (k : Nat) (h : Shroud) : (s.setShroud k h).chipMaster = s.chipMaster := rfl
@[simp] theorem State.setShroud_healthReg (s : State) (k : Nat) (h : Shroud) : (s.setShroud k h).healthReg = s.healthReg := rfl
@[simp] theorem State.setShroud_limit (s : State) (k : Nat) (h : Shroud) : (s.setShroud k h).limit = s.limit := rfl
@[simp] theorem State.setShroud_power (s : State) (k : Nat) (h : Shroud) : (s.setShroud k h).power = s.power := rfl
@[simp] theorem State.setShroud_temp (s : State) (k : Nat) (h : Shroud) : (s.setShroud k h).temp = s.temp := rfl
@[simp] theorem State.setShroud_throttled (s : State) (k : Nat) (h : Shroud) : (s.setShroud k h).throttled = s.throttled := rfl
@[simp] theorem State.setShroud_hot (s : State) (k : Nat) (h : Shroud) : (s.setShroud k h).hot = s.hot := rfl
@[simp] theorem State.setShroud_boot (s : State) (k : Nat) (h : Shroud) : (s.setShroud k h).boot = s.boot := rfl
@[simp] theorem State.setShroud_plimit (s : State) (k : Nat) (h : Shroud) : (s.setShroud k h).plimit = s.plimit := rfl
@[simp] theorem State.setShroud_mail (s : State) (k : Nat) (h : Shroud) : (s.setShroud k h).mail = s.mail := rfl
@[simp] theorem State.setShroud_notes (s : State) (k : Nat) (h : Shroud) : (s.setShroud k h).notes = s.notes := rfl
@[simp] theorem State.setShroud_pools (s : State) (k : Nat) (h : Shroud) : (s.setShroud k h).pools = s.pools := rfl
@[simp] theorem State.setShroud_poolUp (s : State) (k : Nat) (h : Shroud) : (s.setShroud k h).poolUp = s.poolUp := rfl
@[simp] theorem State.setShroud_ports (s : State) (k : Nat) (h : Shroud) : (s.setShroud k h).ports = s.ports := rfl
@[simp] theorem State.setShroud_links (s : State) (k : Nat) (h : Shroud) : (s.setShroud k h).links = s.links := rfl
@[simp] theorem State.setShroud_ide (s : State) (k : Nat) (h : Shroud) : (s.setShroud k h).ide = s.ide := rfl
@[simp] theorem State.setShroud_spdm (s : State) (k : Nat) (h : Shroud) : (s.setShroud k h).spdm = s.spdm := rfl
@[simp] theorem State.setShroud_doe (s : State) (k : Nat) (h : Shroud) : (s.setShroud k h).doe = s.doe := rfl
@[simp] theorem State.setShroud_retired (s : State) (k : Nat) (h : Shroud) : (s.setShroud k h).retired = s.retired := rfl
@[simp] theorem State.setShroud_retiring (s : State) (k : Nat) (h : Shroud) : (s.setShroud k h).retiring = s.retiring := rfl
@[simp] theorem State.setShroud_images (s : State) (k : Nat) (h : Shroud) : (s.setShroud k h).images = s.images := rfl
@[simp] theorem State.setShroud_fwFlash (s : State) (k : Nat) (h : Shroud) : (s.setShroud k h).fwFlash = s.fwFlash := rfl
@[simp] theorem State.setShroud_fwVersion (s : State) (k : Nat) (h : Shroud) : (s.setShroud k h).fwVersion = s.fwVersion := rfl
@[simp] theorem State.setShroud_mslots (s : State) (k : Nat) (h : Shroud) : (s.setShroud k h).mslots = s.mslots := rfl
@[simp] theorem State.setShroud_powered (s : State) (k : Nat) (h : Shroud) : (s.setShroud k h).powered = s.powered := rfl
@[simp] theorem State.setShroud_stoppedByHeat (s : State) (k : Nat) (h : Shroud) : (s.setShroud k h).stoppedByHeat = s.stoppedByHeat := rfl
@[simp] theorem State.setShroud_hostRead (s : State) (k : Nat) (h : Shroud) : (s.setShroud k h).hostRead = s.hostRead := rfl
@[simp] theorem State.setShroud_agenda (s : State) (k : Nat) (h : Shroud) : (s.setShroud k h).agenda = s.agenda := rfl
@[simp] theorem State.setShroud_turn (s : State) (k : Nat) (h : Shroud) : (s.setShroud k h).turn = s.turn := rfl
@[simp] theorem State.setShroud_phase (s : State) (k : Nat) (h : Shroud) : (s.setShroud k h).phase = s.phase := rfl
@[simp] theorem State.setShroud_freeCtr (s : State) (k : Nat) (h : Shroud) : (s.setShroud k h).freeCtr = s.freeCtr := rfl
@[simp] theorem State.updShroud_timebase (s : State) (k : Nat) (f : Shroud → Shroud) : (s.updShroud k f).timebase = s.timebase := rfl
@[simp] theorem State.updShroud_mem (s : State) (k : Nat) (f : Shroud → Shroud) : (s.updShroud k f).mem = s.mem := rfl
@[simp] theorem State.updShroud_ctxs (s : State) (k : Nat) (f : Shroud → Shroud) : (s.updShroud k f).ctxs = s.ctxs := rfl
@[simp] theorem State.updShroud_cores (s : State) (k : Nat) (f : Shroud → Shroud) : (s.updShroud k f).cores = s.cores := rfl
@[simp] theorem State.updShroud_parts (s : State) (k : Nat) (f : Shroud → Shroud) : (s.updShroud k f).parts = s.parts := rfl
@[simp] theorem State.updShroud_launches (s : State) (k : Nat) (f : Shroud → Shroud) : (s.updShroud k f).launches = s.launches := rfl
@[simp] theorem State.updShroud_nextLaunch (s : State) (k : Nat) (f : Shroud → Shroud) : (s.updShroud k f).nextLaunch = s.nextLaunch := rfl
@[simp] theorem State.updShroud_threads (s : State) (k : Nat) (f : Shroud → Shroud) : (s.updShroud k f).threads = s.threads := rfl
@[simp] theorem State.updShroud_nextThread (s : State) (k : Nat) (f : Shroud → Shroud) : (s.updShroud k f).nextThread = s.nextThread := rfl
@[simp] theorem State.updShroud_reqs (s : State) (k : Nat) (f : Shroud → Shroud) : (s.updShroud k f).reqs = s.reqs := rfl
@[simp] theorem State.updShroud_nextReq (s : State) (k : Nat) (f : Shroud → Shroud) : (s.updShroud k f).nextReq = s.nextReq := rfl
@[simp] theorem State.updShroud_loads (s : State) (k : Nat) (f : Shroud → Shroud) : (s.updShroud k f).loads = s.loads := rfl
@[simp] theorem State.updShroud_outbox (s : State) (k : Nat) (f : Shroud → Shroud) : (s.updShroud k f).outbox = s.outbox := rfl
@[simp] theorem State.updShroud_remote (s : State) (k : Nat) (f : Shroud → Shroud) : (s.updShroud k f).remote = s.remote := rfl
@[simp] theorem State.updShroud_chipMaster (s : State) (k : Nat) (f : Shroud → Shroud) : (s.updShroud k f).chipMaster = s.chipMaster := rfl
@[simp] theorem State.updShroud_healthReg (s : State) (k : Nat) (f : Shroud → Shroud) : (s.updShroud k f).healthReg = s.healthReg := rfl
@[simp] theorem State.updShroud_limit (s : State) (k : Nat) (f : Shroud → Shroud) : (s.updShroud k f).limit = s.limit := rfl
@[simp] theorem State.updShroud_power (s : State) (k : Nat) (f : Shroud → Shroud) : (s.updShroud k f).power = s.power := rfl
@[simp] theorem State.updShroud_temp (s : State) (k : Nat) (f : Shroud → Shroud) : (s.updShroud k f).temp = s.temp := rfl
@[simp] theorem State.updShroud_throttled (s : State) (k : Nat) (f : Shroud → Shroud) : (s.updShroud k f).throttled = s.throttled := rfl
@[simp] theorem State.updShroud_hot (s : State) (k : Nat) (f : Shroud → Shroud) : (s.updShroud k f).hot = s.hot := rfl
@[simp] theorem State.updShroud_boot (s : State) (k : Nat) (f : Shroud → Shroud) : (s.updShroud k f).boot = s.boot := rfl
@[simp] theorem State.updShroud_plimit (s : State) (k : Nat) (f : Shroud → Shroud) : (s.updShroud k f).plimit = s.plimit := rfl
@[simp] theorem State.updShroud_mail (s : State) (k : Nat) (f : Shroud → Shroud) : (s.updShroud k f).mail = s.mail := rfl
@[simp] theorem State.updShroud_notes (s : State) (k : Nat) (f : Shroud → Shroud) : (s.updShroud k f).notes = s.notes := rfl
@[simp] theorem State.updShroud_pools (s : State) (k : Nat) (f : Shroud → Shroud) : (s.updShroud k f).pools = s.pools := rfl
@[simp] theorem State.updShroud_poolUp (s : State) (k : Nat) (f : Shroud → Shroud) : (s.updShroud k f).poolUp = s.poolUp := rfl
@[simp] theorem State.updShroud_ports (s : State) (k : Nat) (f : Shroud → Shroud) : (s.updShroud k f).ports = s.ports := rfl
@[simp] theorem State.updShroud_links (s : State) (k : Nat) (f : Shroud → Shroud) : (s.updShroud k f).links = s.links := rfl
@[simp] theorem State.updShroud_ide (s : State) (k : Nat) (f : Shroud → Shroud) : (s.updShroud k f).ide = s.ide := rfl
@[simp] theorem State.updShroud_spdm (s : State) (k : Nat) (f : Shroud → Shroud) : (s.updShroud k f).spdm = s.spdm := rfl
@[simp] theorem State.updShroud_doe (s : State) (k : Nat) (f : Shroud → Shroud) : (s.updShroud k f).doe = s.doe := rfl
@[simp] theorem State.updShroud_retired (s : State) (k : Nat) (f : Shroud → Shroud) : (s.updShroud k f).retired = s.retired := rfl
@[simp] theorem State.updShroud_retiring (s : State) (k : Nat) (f : Shroud → Shroud) : (s.updShroud k f).retiring = s.retiring := rfl
@[simp] theorem State.updShroud_images (s : State) (k : Nat) (f : Shroud → Shroud) : (s.updShroud k f).images = s.images := rfl
@[simp] theorem State.updShroud_fwFlash (s : State) (k : Nat) (f : Shroud → Shroud) : (s.updShroud k f).fwFlash = s.fwFlash := rfl
@[simp] theorem State.updShroud_fwVersion (s : State) (k : Nat) (f : Shroud → Shroud) : (s.updShroud k f).fwVersion = s.fwVersion := rfl
@[simp] theorem State.updShroud_mslots (s : State) (k : Nat) (f : Shroud → Shroud) : (s.updShroud k f).mslots = s.mslots := rfl
@[simp] theorem State.updShroud_powered (s : State) (k : Nat) (f : Shroud → Shroud) : (s.updShroud k f).powered = s.powered := rfl
@[simp] theorem State.updShroud_stoppedByHeat (s : State) (k : Nat) (f : Shroud → Shroud) : (s.updShroud k f).stoppedByHeat = s.stoppedByHeat := rfl
@[simp] theorem State.updShroud_hostRead (s : State) (k : Nat) (f : Shroud → Shroud) : (s.updShroud k f).hostRead = s.hostRead := rfl
@[simp] theorem State.updShroud_agenda (s : State) (k : Nat) (f : Shroud → Shroud) : (s.updShroud k f).agenda = s.agenda := rfl
@[simp] theorem State.updShroud_turn (s : State) (k : Nat) (f : Shroud → Shroud) : (s.updShroud k f).turn = s.turn := rfl
@[simp] theorem State.updShroud_phase (s : State) (k : Nat) (f : Shroud → Shroud) : (s.updShroud k f).phase = s.phase := rfl
@[simp] theorem State.updShroud_freeCtr (s : State) (k : Nat) (f : Shroud → Shroud) : (s.updShroud k f).freeCtr = s.freeCtr := rfl
@[simp] theorem State.setPart_timebase (s : State) (p : Nat) (x : Part) : (s.setPart p x).timebase = s.timebase := rfl
@[simp] theorem State.setPart_mem (s : State) (p : Nat) (x : Part) : (s.setPart p x).mem = s.mem := rfl
@[simp] theorem State.setPart_ctxs (s : State) (p : Nat) (x : Part) : (s.setPart p x).ctxs = s.ctxs := rfl
@[simp] theorem State.setPart_cores (s : State) (p : Nat) (x : Part) : (s.setPart p x).cores = s.cores := rfl
@[simp] theorem State.setPart_shrouds (s : State) (p : Nat) (x : Part) : (s.setPart p x).shrouds = s.shrouds := rfl
@[simp] theorem State.setPart_launches (s : State) (p : Nat) (x : Part) : (s.setPart p x).launches = s.launches := rfl
@[simp] theorem State.setPart_nextLaunch (s : State) (p : Nat) (x : Part) : (s.setPart p x).nextLaunch = s.nextLaunch := rfl
@[simp] theorem State.setPart_threads (s : State) (p : Nat) (x : Part) : (s.setPart p x).threads = s.threads := rfl
@[simp] theorem State.setPart_nextThread (s : State) (p : Nat) (x : Part) : (s.setPart p x).nextThread = s.nextThread := rfl
@[simp] theorem State.setPart_reqs (s : State) (p : Nat) (x : Part) : (s.setPart p x).reqs = s.reqs := rfl
@[simp] theorem State.setPart_nextReq (s : State) (p : Nat) (x : Part) : (s.setPart p x).nextReq = s.nextReq := rfl
@[simp] theorem State.setPart_loads (s : State) (p : Nat) (x : Part) : (s.setPart p x).loads = s.loads := rfl
@[simp] theorem State.setPart_outbox (s : State) (p : Nat) (x : Part) : (s.setPart p x).outbox = s.outbox := rfl
@[simp] theorem State.setPart_remote (s : State) (p : Nat) (x : Part) : (s.setPart p x).remote = s.remote := rfl
@[simp] theorem State.setPart_chipMaster (s : State) (p : Nat) (x : Part) : (s.setPart p x).chipMaster = s.chipMaster := rfl
@[simp] theorem State.setPart_healthReg (s : State) (p : Nat) (x : Part) : (s.setPart p x).healthReg = s.healthReg := rfl
@[simp] theorem State.setPart_limit (s : State) (p : Nat) (x : Part) : (s.setPart p x).limit = s.limit := rfl
@[simp] theorem State.setPart_power (s : State) (p : Nat) (x : Part) : (s.setPart p x).power = s.power := rfl
@[simp] theorem State.setPart_temp (s : State) (p : Nat) (x : Part) : (s.setPart p x).temp = s.temp := rfl
@[simp] theorem State.setPart_throttled (s : State) (p : Nat) (x : Part) : (s.setPart p x).throttled = s.throttled := rfl
@[simp] theorem State.setPart_hot (s : State) (p : Nat) (x : Part) : (s.setPart p x).hot = s.hot := rfl
@[simp] theorem State.setPart_boot (s : State) (p : Nat) (x : Part) : (s.setPart p x).boot = s.boot := rfl
@[simp] theorem State.setPart_plimit (s : State) (p : Nat) (x : Part) : (s.setPart p x).plimit = s.plimit := rfl
@[simp] theorem State.setPart_mail (s : State) (p : Nat) (x : Part) : (s.setPart p x).mail = s.mail := rfl
@[simp] theorem State.setPart_notes (s : State) (p : Nat) (x : Part) : (s.setPart p x).notes = s.notes := rfl
@[simp] theorem State.setPart_pools (s : State) (p : Nat) (x : Part) : (s.setPart p x).pools = s.pools := rfl
@[simp] theorem State.setPart_poolUp (s : State) (p : Nat) (x : Part) : (s.setPart p x).poolUp = s.poolUp := rfl
@[simp] theorem State.setPart_ports (s : State) (p : Nat) (x : Part) : (s.setPart p x).ports = s.ports := rfl
@[simp] theorem State.setPart_links (s : State) (p : Nat) (x : Part) : (s.setPart p x).links = s.links := rfl
@[simp] theorem State.setPart_ide (s : State) (p : Nat) (x : Part) : (s.setPart p x).ide = s.ide := rfl
@[simp] theorem State.setPart_spdm (s : State) (p : Nat) (x : Part) : (s.setPart p x).spdm = s.spdm := rfl
@[simp] theorem State.setPart_doe (s : State) (p : Nat) (x : Part) : (s.setPart p x).doe = s.doe := rfl
@[simp] theorem State.setPart_retired (s : State) (p : Nat) (x : Part) : (s.setPart p x).retired = s.retired := rfl
@[simp] theorem State.setPart_retiring (s : State) (p : Nat) (x : Part) : (s.setPart p x).retiring = s.retiring := rfl
@[simp] theorem State.setPart_images (s : State) (p : Nat) (x : Part) : (s.setPart p x).images = s.images := rfl
@[simp] theorem State.setPart_fwFlash (s : State) (p : Nat) (x : Part) : (s.setPart p x).fwFlash = s.fwFlash := rfl
@[simp] theorem State.setPart_fwVersion (s : State) (p : Nat) (x : Part) : (s.setPart p x).fwVersion = s.fwVersion := rfl
@[simp] theorem State.setPart_mslots (s : State) (p : Nat) (x : Part) : (s.setPart p x).mslots = s.mslots := rfl
@[simp] theorem State.setPart_powered (s : State) (p : Nat) (x : Part) : (s.setPart p x).powered = s.powered := rfl
@[simp] theorem State.setPart_stoppedByHeat (s : State) (p : Nat) (x : Part) : (s.setPart p x).stoppedByHeat = s.stoppedByHeat := rfl
@[simp] theorem State.setPart_hostRead (s : State) (p : Nat) (x : Part) : (s.setPart p x).hostRead = s.hostRead := rfl
@[simp] theorem State.setPart_agenda (s : State) (p : Nat) (x : Part) : (s.setPart p x).agenda = s.agenda := rfl
@[simp] theorem State.setPart_turn (s : State) (p : Nat) (x : Part) : (s.setPart p x).turn = s.turn := rfl
@[simp] theorem State.setPart_phase (s : State) (p : Nat) (x : Part) : (s.setPart p x).phase = s.phase := rfl
@[simp] theorem State.setPart_freeCtr (s : State) (p : Nat) (x : Part) : (s.setPart p x).freeCtr = s.freeCtr := rfl
@[simp] theorem State.updPart_timebase (s : State) (p : Nat) (f : Part → Part) : (s.updPart p f).timebase = s.timebase := rfl
@[simp] theorem State.updPart_mem (s : State) (p : Nat) (f : Part → Part) : (s.updPart p f).mem = s.mem := rfl
@[simp] theorem State.updPart_ctxs (s : State) (p : Nat) (f : Part → Part) : (s.updPart p f).ctxs = s.ctxs := rfl
@[simp] theorem State.updPart_cores (s : State) (p : Nat) (f : Part → Part) : (s.updPart p f).cores = s.cores := rfl
@[simp] theorem State.updPart_shrouds (s : State) (p : Nat) (f : Part → Part) : (s.updPart p f).shrouds = s.shrouds := rfl
@[simp] theorem State.updPart_launches (s : State) (p : Nat) (f : Part → Part) : (s.updPart p f).launches = s.launches := rfl
@[simp] theorem State.updPart_nextLaunch (s : State) (p : Nat) (f : Part → Part) : (s.updPart p f).nextLaunch = s.nextLaunch := rfl
@[simp] theorem State.updPart_threads (s : State) (p : Nat) (f : Part → Part) : (s.updPart p f).threads = s.threads := rfl
@[simp] theorem State.updPart_nextThread (s : State) (p : Nat) (f : Part → Part) : (s.updPart p f).nextThread = s.nextThread := rfl
@[simp] theorem State.updPart_reqs (s : State) (p : Nat) (f : Part → Part) : (s.updPart p f).reqs = s.reqs := rfl
@[simp] theorem State.updPart_nextReq (s : State) (p : Nat) (f : Part → Part) : (s.updPart p f).nextReq = s.nextReq := rfl
@[simp] theorem State.updPart_loads (s : State) (p : Nat) (f : Part → Part) : (s.updPart p f).loads = s.loads := rfl
@[simp] theorem State.updPart_outbox (s : State) (p : Nat) (f : Part → Part) : (s.updPart p f).outbox = s.outbox := rfl
@[simp] theorem State.updPart_remote (s : State) (p : Nat) (f : Part → Part) : (s.updPart p f).remote = s.remote := rfl
@[simp] theorem State.updPart_chipMaster (s : State) (p : Nat) (f : Part → Part) : (s.updPart p f).chipMaster = s.chipMaster := rfl
@[simp] theorem State.updPart_healthReg (s : State) (p : Nat) (f : Part → Part) : (s.updPart p f).healthReg = s.healthReg := rfl
@[simp] theorem State.updPart_limit (s : State) (p : Nat) (f : Part → Part) : (s.updPart p f).limit = s.limit := rfl
@[simp] theorem State.updPart_power (s : State) (p : Nat) (f : Part → Part) : (s.updPart p f).power = s.power := rfl
@[simp] theorem State.updPart_temp (s : State) (p : Nat) (f : Part → Part) : (s.updPart p f).temp = s.temp := rfl
@[simp] theorem State.updPart_throttled (s : State) (p : Nat) (f : Part → Part) : (s.updPart p f).throttled = s.throttled := rfl
@[simp] theorem State.updPart_hot (s : State) (p : Nat) (f : Part → Part) : (s.updPart p f).hot = s.hot := rfl
@[simp] theorem State.updPart_boot (s : State) (p : Nat) (f : Part → Part) : (s.updPart p f).boot = s.boot := rfl
@[simp] theorem State.updPart_plimit (s : State) (p : Nat) (f : Part → Part) : (s.updPart p f).plimit = s.plimit := rfl
@[simp] theorem State.updPart_mail (s : State) (p : Nat) (f : Part → Part) : (s.updPart p f).mail = s.mail := rfl
@[simp] theorem State.updPart_notes (s : State) (p : Nat) (f : Part → Part) : (s.updPart p f).notes = s.notes := rfl
@[simp] theorem State.updPart_pools (s : State) (p : Nat) (f : Part → Part) : (s.updPart p f).pools = s.pools := rfl
@[simp] theorem State.updPart_poolUp (s : State) (p : Nat) (f : Part → Part) : (s.updPart p f).poolUp = s.poolUp := rfl
@[simp] theorem State.updPart_ports (s : State) (p : Nat) (f : Part → Part) : (s.updPart p f).ports = s.ports := rfl
@[simp] theorem State.updPart_links (s : State) (p : Nat) (f : Part → Part) : (s.updPart p f).links = s.links := rfl
@[simp] theorem State.updPart_ide (s : State) (p : Nat) (f : Part → Part) : (s.updPart p f).ide = s.ide := rfl
@[simp] theorem State.updPart_spdm (s : State) (p : Nat) (f : Part → Part) : (s.updPart p f).spdm = s.spdm := rfl
@[simp] theorem State.updPart_doe (s : State) (p : Nat) (f : Part → Part) : (s.updPart p f).doe = s.doe := rfl
@[simp] theorem State.updPart_retired (s : State) (p : Nat) (f : Part → Part) : (s.updPart p f).retired = s.retired := rfl
@[simp] theorem State.updPart_retiring (s : State) (p : Nat) (f : Part → Part) : (s.updPart p f).retiring = s.retiring := rfl
@[simp] theorem State.updPart_images (s : State) (p : Nat) (f : Part → Part) : (s.updPart p f).images = s.images := rfl
@[simp] theorem State.updPart_fwFlash (s : State) (p : Nat) (f : Part → Part) : (s.updPart p f).fwFlash = s.fwFlash := rfl
@[simp] theorem State.updPart_fwVersion (s : State) (p : Nat) (f : Part → Part) : (s.updPart p f).fwVersion = s.fwVersion := rfl
@[simp] theorem State.updPart_mslots (s : State) (p : Nat) (f : Part → Part) : (s.updPart p f).mslots = s.mslots := rfl
@[simp] theorem State.updPart_powered (s : State) (p : Nat) (f : Part → Part) : (s.updPart p f).powered = s.powered := rfl
@[simp] theorem State.updPart_stoppedByHeat (s : State) (p : Nat) (f : Part → Part) : (s.updPart p f).stoppedByHeat = s.stoppedByHeat := rfl
@[simp] theorem State.updPart_hostRead (s : State) (p : Nat) (f : Part → Part) : (s.updPart p f).hostRead = s.hostRead := rfl
@[simp] theorem State.updPart_agenda (s : State) (p : Nat) (f : Part → Part) : (s.updPart p f).agenda = s.agenda := rfl
@[simp] theorem State.updPart_turn (s : State) (p : Nat) (f : Part → Part) : (s.updPart p f).turn = s.turn := rfl
@[simp] theorem State.updPart_phase (s : State) (p : Nat) (f : Part → Part) : (s.updPart p f).phase = s.phase := rfl
@[simp] theorem State.updPart_freeCtr (s : State) (p : Nat) (f : Part → Part) : (s.updPart p f).freeCtr = s.freeCtr := rfl
@[simp] theorem State.updLaunch_timebase (s : State) (l : Nat) (f : Launch → Launch) : (s.updLaunch l f).timebase = s.timebase := rfl
@[simp] theorem State.updLaunch_mem (s : State) (l : Nat) (f : Launch → Launch) : (s.updLaunch l f).mem = s.mem := rfl
@[simp] theorem State.updLaunch_ctxs (s : State) (l : Nat) (f : Launch → Launch) : (s.updLaunch l f).ctxs = s.ctxs := rfl
@[simp] theorem State.updLaunch_cores (s : State) (l : Nat) (f : Launch → Launch) : (s.updLaunch l f).cores = s.cores := rfl
@[simp] theorem State.updLaunch_shrouds (s : State) (l : Nat) (f : Launch → Launch) : (s.updLaunch l f).shrouds = s.shrouds := rfl
@[simp] theorem State.updLaunch_parts (s : State) (l : Nat) (f : Launch → Launch) : (s.updLaunch l f).parts = s.parts := rfl
@[simp] theorem State.updLaunch_nextLaunch (s : State) (l : Nat) (f : Launch → Launch) : (s.updLaunch l f).nextLaunch = s.nextLaunch := rfl
@[simp] theorem State.updLaunch_threads (s : State) (l : Nat) (f : Launch → Launch) : (s.updLaunch l f).threads = s.threads := rfl
@[simp] theorem State.updLaunch_nextThread (s : State) (l : Nat) (f : Launch → Launch) : (s.updLaunch l f).nextThread = s.nextThread := rfl
@[simp] theorem State.updLaunch_reqs (s : State) (l : Nat) (f : Launch → Launch) : (s.updLaunch l f).reqs = s.reqs := rfl
@[simp] theorem State.updLaunch_nextReq (s : State) (l : Nat) (f : Launch → Launch) : (s.updLaunch l f).nextReq = s.nextReq := rfl
@[simp] theorem State.updLaunch_loads (s : State) (l : Nat) (f : Launch → Launch) : (s.updLaunch l f).loads = s.loads := rfl
@[simp] theorem State.updLaunch_outbox (s : State) (l : Nat) (f : Launch → Launch) : (s.updLaunch l f).outbox = s.outbox := rfl
@[simp] theorem State.updLaunch_remote (s : State) (l : Nat) (f : Launch → Launch) : (s.updLaunch l f).remote = s.remote := rfl
@[simp] theorem State.updLaunch_chipMaster (s : State) (l : Nat) (f : Launch → Launch) : (s.updLaunch l f).chipMaster = s.chipMaster := rfl
@[simp] theorem State.updLaunch_healthReg (s : State) (l : Nat) (f : Launch → Launch) : (s.updLaunch l f).healthReg = s.healthReg := rfl
@[simp] theorem State.updLaunch_limit (s : State) (l : Nat) (f : Launch → Launch) : (s.updLaunch l f).limit = s.limit := rfl
@[simp] theorem State.updLaunch_power (s : State) (l : Nat) (f : Launch → Launch) : (s.updLaunch l f).power = s.power := rfl
@[simp] theorem State.updLaunch_temp (s : State) (l : Nat) (f : Launch → Launch) : (s.updLaunch l f).temp = s.temp := rfl
@[simp] theorem State.updLaunch_throttled (s : State) (l : Nat) (f : Launch → Launch) : (s.updLaunch l f).throttled = s.throttled := rfl
@[simp] theorem State.updLaunch_hot (s : State) (l : Nat) (f : Launch → Launch) : (s.updLaunch l f).hot = s.hot := rfl
@[simp] theorem State.updLaunch_boot (s : State) (l : Nat) (f : Launch → Launch) : (s.updLaunch l f).boot = s.boot := rfl
@[simp] theorem State.updLaunch_plimit (s : State) (l : Nat) (f : Launch → Launch) : (s.updLaunch l f).plimit = s.plimit := rfl
@[simp] theorem State.updLaunch_mail (s : State) (l : Nat) (f : Launch → Launch) : (s.updLaunch l f).mail = s.mail := rfl
@[simp] theorem State.updLaunch_notes (s : State) (l : Nat) (f : Launch → Launch) : (s.updLaunch l f).notes = s.notes := rfl
@[simp] theorem State.updLaunch_pools (s : State) (l : Nat) (f : Launch → Launch) : (s.updLaunch l f).pools = s.pools := rfl
@[simp] theorem State.updLaunch_poolUp (s : State) (l : Nat) (f : Launch → Launch) : (s.updLaunch l f).poolUp = s.poolUp := rfl
@[simp] theorem State.updLaunch_ports (s : State) (l : Nat) (f : Launch → Launch) : (s.updLaunch l f).ports = s.ports := rfl
@[simp] theorem State.updLaunch_links (s : State) (l : Nat) (f : Launch → Launch) : (s.updLaunch l f).links = s.links := rfl
@[simp] theorem State.updLaunch_ide (s : State) (l : Nat) (f : Launch → Launch) : (s.updLaunch l f).ide = s.ide := rfl
@[simp] theorem State.updLaunch_spdm (s : State) (l : Nat) (f : Launch → Launch) : (s.updLaunch l f).spdm = s.spdm := rfl
@[simp] theorem State.updLaunch_doe (s : State) (l : Nat) (f : Launch → Launch) : (s.updLaunch l f).doe = s.doe := rfl
@[simp] theorem State.updLaunch_retired (s : State) (l : Nat) (f : Launch → Launch) : (s.updLaunch l f).retired = s.retired := rfl
@[simp] theorem State.updLaunch_retiring (s : State) (l : Nat) (f : Launch → Launch) : (s.updLaunch l f).retiring = s.retiring := rfl
@[simp] theorem State.updLaunch_images (s : State) (l : Nat) (f : Launch → Launch) : (s.updLaunch l f).images = s.images := rfl
@[simp] theorem State.updLaunch_fwFlash (s : State) (l : Nat) (f : Launch → Launch) : (s.updLaunch l f).fwFlash = s.fwFlash := rfl
@[simp] theorem State.updLaunch_fwVersion (s : State) (l : Nat) (f : Launch → Launch) : (s.updLaunch l f).fwVersion = s.fwVersion := rfl
@[simp] theorem State.updLaunch_mslots (s : State) (l : Nat) (f : Launch → Launch) : (s.updLaunch l f).mslots = s.mslots := rfl
@[simp] theorem State.updLaunch_powered (s : State) (l : Nat) (f : Launch → Launch) : (s.updLaunch l f).powered = s.powered := rfl
@[simp] theorem State.updLaunch_stoppedByHeat (s : State) (l : Nat) (f : Launch → Launch) : (s.updLaunch l f).stoppedByHeat = s.stoppedByHeat := rfl
@[simp] theorem State.updLaunch_hostRead (s : State) (l : Nat) (f : Launch → Launch) : (s.updLaunch l f).hostRead = s.hostRead := rfl
@[simp] theorem State.updLaunch_agenda (s : State) (l : Nat) (f : Launch → Launch) : (s.updLaunch l f).agenda = s.agenda := rfl
@[simp] theorem State.updLaunch_turn (s : State) (l : Nat) (f : Launch → Launch) : (s.updLaunch l f).turn = s.turn := rfl
@[simp] theorem State.updLaunch_phase (s : State) (l : Nat) (f : Launch → Launch) : (s.updLaunch l f).phase = s.phase := rfl
@[simp] theorem State.updLaunch_freeCtr (s : State) (l : Nat) (f : Launch → Launch) : (s.updLaunch l f).freeCtr = s.freeCtr := rfl
@[simp] theorem State.updThread_timebase (s : State) (id : Nat) (f : Thread → Thread) : (s.updThread id f).timebase = s.timebase := rfl
@[simp] theorem State.updThread_mem (s : State) (id : Nat) (f : Thread → Thread) : (s.updThread id f).mem = s.mem := rfl
@[simp] theorem State.updThread_ctxs (s : State) (id : Nat) (f : Thread → Thread) : (s.updThread id f).ctxs = s.ctxs := rfl
@[simp] theorem State.updThread_cores (s : State) (id : Nat) (f : Thread → Thread) : (s.updThread id f).cores = s.cores := rfl
@[simp] theorem State.updThread_shrouds (s : State) (id : Nat) (f : Thread → Thread) : (s.updThread id f).shrouds = s.shrouds := rfl
@[simp] theorem State.updThread_parts (s : State) (id : Nat) (f : Thread → Thread) : (s.updThread id f).parts = s.parts := rfl
@[simp] theorem State.updThread_launches (s : State) (id : Nat) (f : Thread → Thread) : (s.updThread id f).launches = s.launches := rfl
@[simp] theorem State.updThread_nextLaunch (s : State) (id : Nat) (f : Thread → Thread) : (s.updThread id f).nextLaunch = s.nextLaunch := rfl
@[simp] theorem State.updThread_nextThread (s : State) (id : Nat) (f : Thread → Thread) : (s.updThread id f).nextThread = s.nextThread := rfl
@[simp] theorem State.updThread_reqs (s : State) (id : Nat) (f : Thread → Thread) : (s.updThread id f).reqs = s.reqs := rfl
@[simp] theorem State.updThread_nextReq (s : State) (id : Nat) (f : Thread → Thread) : (s.updThread id f).nextReq = s.nextReq := rfl
@[simp] theorem State.updThread_loads (s : State) (id : Nat) (f : Thread → Thread) : (s.updThread id f).loads = s.loads := rfl
@[simp] theorem State.updThread_outbox (s : State) (id : Nat) (f : Thread → Thread) : (s.updThread id f).outbox = s.outbox := rfl
@[simp] theorem State.updThread_remote (s : State) (id : Nat) (f : Thread → Thread) : (s.updThread id f).remote = s.remote := rfl
@[simp] theorem State.updThread_chipMaster (s : State) (id : Nat) (f : Thread → Thread) : (s.updThread id f).chipMaster = s.chipMaster := rfl
@[simp] theorem State.updThread_healthReg (s : State) (id : Nat) (f : Thread → Thread) : (s.updThread id f).healthReg = s.healthReg := rfl
@[simp] theorem State.updThread_limit (s : State) (id : Nat) (f : Thread → Thread) : (s.updThread id f).limit = s.limit := rfl
@[simp] theorem State.updThread_power (s : State) (id : Nat) (f : Thread → Thread) : (s.updThread id f).power = s.power := rfl
@[simp] theorem State.updThread_temp (s : State) (id : Nat) (f : Thread → Thread) : (s.updThread id f).temp = s.temp := rfl
@[simp] theorem State.updThread_throttled (s : State) (id : Nat) (f : Thread → Thread) : (s.updThread id f).throttled = s.throttled := rfl
@[simp] theorem State.updThread_hot (s : State) (id : Nat) (f : Thread → Thread) : (s.updThread id f).hot = s.hot := rfl
@[simp] theorem State.updThread_boot (s : State) (id : Nat) (f : Thread → Thread) : (s.updThread id f).boot = s.boot := rfl
@[simp] theorem State.updThread_plimit (s : State) (id : Nat) (f : Thread → Thread) : (s.updThread id f).plimit = s.plimit := rfl
@[simp] theorem State.updThread_mail (s : State) (id : Nat) (f : Thread → Thread) : (s.updThread id f).mail = s.mail := rfl
@[simp] theorem State.updThread_notes (s : State) (id : Nat) (f : Thread → Thread) : (s.updThread id f).notes = s.notes := rfl
@[simp] theorem State.updThread_pools (s : State) (id : Nat) (f : Thread → Thread) : (s.updThread id f).pools = s.pools := rfl
@[simp] theorem State.updThread_poolUp (s : State) (id : Nat) (f : Thread → Thread) : (s.updThread id f).poolUp = s.poolUp := rfl
@[simp] theorem State.updThread_ports (s : State) (id : Nat) (f : Thread → Thread) : (s.updThread id f).ports = s.ports := rfl
@[simp] theorem State.updThread_links (s : State) (id : Nat) (f : Thread → Thread) : (s.updThread id f).links = s.links := rfl
@[simp] theorem State.updThread_ide (s : State) (id : Nat) (f : Thread → Thread) : (s.updThread id f).ide = s.ide := rfl
@[simp] theorem State.updThread_spdm (s : State) (id : Nat) (f : Thread → Thread) : (s.updThread id f).spdm = s.spdm := rfl
@[simp] theorem State.updThread_doe (s : State) (id : Nat) (f : Thread → Thread) : (s.updThread id f).doe = s.doe := rfl
@[simp] theorem State.updThread_retired (s : State) (id : Nat) (f : Thread → Thread) : (s.updThread id f).retired = s.retired := rfl
@[simp] theorem State.updThread_retiring (s : State) (id : Nat) (f : Thread → Thread) : (s.updThread id f).retiring = s.retiring := rfl
@[simp] theorem State.updThread_images (s : State) (id : Nat) (f : Thread → Thread) : (s.updThread id f).images = s.images := rfl
@[simp] theorem State.updThread_fwFlash (s : State) (id : Nat) (f : Thread → Thread) : (s.updThread id f).fwFlash = s.fwFlash := rfl
@[simp] theorem State.updThread_fwVersion (s : State) (id : Nat) (f : Thread → Thread) : (s.updThread id f).fwVersion = s.fwVersion := rfl
@[simp] theorem State.updThread_mslots (s : State) (id : Nat) (f : Thread → Thread) : (s.updThread id f).mslots = s.mslots := rfl
@[simp] theorem State.updThread_powered (s : State) (id : Nat) (f : Thread → Thread) : (s.updThread id f).powered = s.powered := rfl
@[simp] theorem State.updThread_stoppedByHeat (s : State) (id : Nat) (f : Thread → Thread) : (s.updThread id f).stoppedByHeat = s.stoppedByHeat := rfl
@[simp] theorem State.updThread_hostRead (s : State) (id : Nat) (f : Thread → Thread) : (s.updThread id f).hostRead = s.hostRead := rfl
@[simp] theorem State.updThread_agenda (s : State) (id : Nat) (f : Thread → Thread) : (s.updThread id f).agenda = s.agenda := rfl
@[simp] theorem State.updThread_turn (s : State) (id : Nat) (f : Thread → Thread) : (s.updThread id f).turn = s.turn := rfl
@[simp] theorem State.updThread_phase (s : State) (id : Nat) (f : Thread → Thread) : (s.updThread id f).phase = s.phase := rfl
@[simp] theorem State.updThread_freeCtr (s : State) (id : Nat) (f : Thread → Thread) : (s.updThread id f).freeCtr = s.freeCtr := rfl
@[simp] theorem State.tick_timebase (s : State) : (s.tick).timebase = s.timebase := rfl
@[simp] theorem State.tick_mem (s : State) : (s.tick).mem = s.mem := rfl
@[simp] theorem State.tick_ctxs (s : State) : (s.tick).ctxs = s.ctxs := rfl
@[simp] theorem State.tick_cores (s : State) : (s.tick).cores = s.cores := rfl
@[simp] theorem State.tick_shrouds (s : State) : (s.tick).shrouds = s.shrouds := rfl
@[simp] theorem State.tick_parts (s : State) : (s.tick).parts = s.parts := rfl
@[simp] theorem State.tick_launches (s : State) : (s.tick).launches = s.launches := rfl
@[simp] theorem State.tick_nextLaunch (s : State) : (s.tick).nextLaunch = s.nextLaunch := rfl
@[simp] theorem State.tick_threads (s : State) : (s.tick).threads = s.threads := rfl
@[simp] theorem State.tick_nextThread (s : State) : (s.tick).nextThread = s.nextThread := rfl
@[simp] theorem State.tick_reqs (s : State) : (s.tick).reqs = s.reqs := rfl
@[simp] theorem State.tick_nextReq (s : State) : (s.tick).nextReq = s.nextReq := rfl
@[simp] theorem State.tick_loads (s : State) : (s.tick).loads = s.loads := rfl
@[simp] theorem State.tick_outbox (s : State) : (s.tick).outbox = s.outbox := rfl
@[simp] theorem State.tick_remote (s : State) : (s.tick).remote = s.remote := rfl
@[simp] theorem State.tick_chipMaster (s : State) : (s.tick).chipMaster = s.chipMaster := rfl
@[simp] theorem State.tick_healthReg (s : State) : (s.tick).healthReg = s.healthReg := rfl
@[simp] theorem State.tick_limit (s : State) : (s.tick).limit = s.limit := rfl
@[simp] theorem State.tick_power (s : State) : (s.tick).power = s.power := rfl
@[simp] theorem State.tick_temp (s : State) : (s.tick).temp = s.temp := rfl
@[simp] theorem State.tick_throttled (s : State) : (s.tick).throttled = s.throttled := rfl
@[simp] theorem State.tick_hot (s : State) : (s.tick).hot = s.hot := rfl
@[simp] theorem State.tick_boot (s : State) : (s.tick).boot = s.boot := rfl
@[simp] theorem State.tick_plimit (s : State) : (s.tick).plimit = s.plimit := rfl
@[simp] theorem State.tick_mail (s : State) : (s.tick).mail = s.mail := rfl
@[simp] theorem State.tick_notes (s : State) : (s.tick).notes = s.notes := rfl
@[simp] theorem State.tick_pools (s : State) : (s.tick).pools = s.pools := rfl
@[simp] theorem State.tick_poolUp (s : State) : (s.tick).poolUp = s.poolUp := rfl
@[simp] theorem State.tick_ports (s : State) : (s.tick).ports = s.ports := rfl
@[simp] theorem State.tick_links (s : State) : (s.tick).links = s.links := rfl
@[simp] theorem State.tick_ide (s : State) : (s.tick).ide = s.ide := rfl
@[simp] theorem State.tick_spdm (s : State) : (s.tick).spdm = s.spdm := rfl
@[simp] theorem State.tick_doe (s : State) : (s.tick).doe = s.doe := rfl
@[simp] theorem State.tick_retired (s : State) : (s.tick).retired = s.retired := rfl
@[simp] theorem State.tick_retiring (s : State) : (s.tick).retiring = s.retiring := rfl
@[simp] theorem State.tick_images (s : State) : (s.tick).images = s.images := rfl
@[simp] theorem State.tick_fwFlash (s : State) : (s.tick).fwFlash = s.fwFlash := rfl
@[simp] theorem State.tick_fwVersion (s : State) : (s.tick).fwVersion = s.fwVersion := rfl
@[simp] theorem State.tick_mslots (s : State) : (s.tick).mslots = s.mslots := rfl
@[simp] theorem State.tick_powered (s : State) : (s.tick).powered = s.powered := rfl
@[simp] theorem State.tick_stoppedByHeat (s : State) : (s.tick).stoppedByHeat = s.stoppedByHeat := rfl
@[simp] theorem State.tick_hostRead (s : State) : (s.tick).hostRead = s.hostRead := rfl
@[simp] theorem State.tick_agenda (s : State) : (s.tick).agenda = s.agenda := rfl
@[simp] theorem State.tick_turn (s : State) : (s.tick).turn = s.turn := rfl
@[simp] theorem State.tick_phase (s : State) : (s.tick).phase = s.phase := rfl
@[simp] theorem State.setCtx_core (s : State) (g : Nat) (c : Ctx) (j : Nat) : (s.setCtx g c).core j = s.core j := rfl
@[simp] theorem State.setCtx_shroud (s : State) (g : Nat) (c : Ctx) (j : Nat) : (s.setCtx g c).shroud j = s.shroud j := rfl
@[simp] theorem State.setCtx_part (s : State) (g : Nat) (c : Ctx) (j : Nat) : (s.setCtx g c).part j = s.part j := rfl
@[simp] theorem State.setCtx_partOf (s : State) (g : Nat) (c : Ctx) (j : Nat) : (s.setCtx g c).partOf j = s.partOf j := rfl
@[simp] theorem State.setCtx_partSize (s : State) (g : Nat) (c : Ctx) (j : Nat) : (s.setCtx g c).partSize j = s.partSize j := rfl
@[simp] theorem State.setCtx_inPart (s : State) (g : Nat) (c : Ctx) (q : Nat) (j : Nat) : (s.setCtx g c).inPart q j = s.inPart q j := rfl
@[simp] theorem State.setCtx_partCores (s : State) (g : Nat) (c : Ctx) (q : Nat) : (s.setCtx g c).partCores q = s.partCores q := rfl
@[simp] theorem State.updCtx_core (s : State) (g : Nat) (f : Ctx → Ctx) (j : Nat) : (s.updCtx g f).core j = s.core j := rfl
@[simp] theorem State.updCtx_shroud (s : State) (g : Nat) (f : Ctx → Ctx) (j : Nat) : (s.updCtx g f).shroud j = s.shroud j := rfl
@[simp] theorem State.updCtx_part (s : State) (g : Nat) (f : Ctx → Ctx) (j : Nat) : (s.updCtx g f).part j = s.part j := rfl
@[simp] theorem State.updCtx_partOf (s : State) (g : Nat) (f : Ctx → Ctx) (j : Nat) : (s.updCtx g f).partOf j = s.partOf j := rfl
@[simp] theorem State.updCtx_partSize (s : State) (g : Nat) (f : Ctx → Ctx) (j : Nat) : (s.updCtx g f).partSize j = s.partSize j := rfl
@[simp] theorem State.updCtx_inPart (s : State) (g : Nat) (f : Ctx → Ctx) (q : Nat) (j : Nat) : (s.updCtx g f).inPart q j = s.inPart q j := rfl
@[simp] theorem State.updCtx_partCores (s : State) (g : Nat) (f : Ctx → Ctx) (q : Nat) : (s.updCtx g f).partCores q = s.partCores q := rfl
@[simp] theorem State.setCore_ctx (s : State) (k : Nat) (c : Core) (j : Nat) : (s.setCore k c).ctx j = s.ctx j := rfl
@[simp] theorem State.setCore_shroud (s : State) (k : Nat) (c : Core) (j : Nat) : (s.setCore k c).shroud j = s.shroud j := rfl
@[simp] theorem State.setCore_part (s : State) (k : Nat) (c : Core) (j : Nat) : (s.setCore k c).part j = s.part j := rfl
@[simp] theorem State.setCore_partOf (s : State) (k : Nat) (c : Core) (j : Nat) : (s.setCore k c).partOf j = s.partOf j := rfl
@[simp] theorem State.setCore_partSize (s : State) (k : Nat) (c : Core) (j : Nat) : (s.setCore k c).partSize j = s.partSize j := rfl
@[simp] theorem State.setCore_inPart (s : State) (k : Nat) (c : Core) (q : Nat) (j : Nat) : (s.setCore k c).inPart q j = s.inPart q j := rfl
@[simp] theorem State.setCore_partCores (s : State) (k : Nat) (c : Core) (q : Nat) : (s.setCore k c).partCores q = s.partCores q := rfl
@[simp] theorem State.updCore_ctx (s : State) (k : Nat) (f : Core → Core) (j : Nat) : (s.updCore k f).ctx j = s.ctx j := rfl
@[simp] theorem State.updCore_shroud (s : State) (k : Nat) (f : Core → Core) (j : Nat) : (s.updCore k f).shroud j = s.shroud j := rfl
@[simp] theorem State.updCore_part (s : State) (k : Nat) (f : Core → Core) (j : Nat) : (s.updCore k f).part j = s.part j := rfl
@[simp] theorem State.updCore_partOf (s : State) (k : Nat) (f : Core → Core) (j : Nat) : (s.updCore k f).partOf j = s.partOf j := rfl
@[simp] theorem State.updCore_partSize (s : State) (k : Nat) (f : Core → Core) (j : Nat) : (s.updCore k f).partSize j = s.partSize j := rfl
@[simp] theorem State.updCore_inPart (s : State) (k : Nat) (f : Core → Core) (q : Nat) (j : Nat) : (s.updCore k f).inPart q j = s.inPart q j := rfl
@[simp] theorem State.updCore_partCores (s : State) (k : Nat) (f : Core → Core) (q : Nat) : (s.updCore k f).partCores q = s.partCores q := rfl
@[simp] theorem State.setShroud_ctx (s : State) (k : Nat) (h : Shroud) (j : Nat) : (s.setShroud k h).ctx j = s.ctx j := rfl
@[simp] theorem State.setShroud_core (s : State) (k : Nat) (h : Shroud) (j : Nat) : (s.setShroud k h).core j = s.core j := rfl
@[simp] theorem State.setShroud_part (s : State) (k : Nat) (h : Shroud) (j : Nat) : (s.setShroud k h).part j = s.part j := rfl
@[simp] theorem State.updShroud_ctx (s : State) (k : Nat) (f : Shroud → Shroud) (j : Nat) : (s.updShroud k f).ctx j = s.ctx j := rfl
@[simp] theorem State.updShroud_core (s : State) (k : Nat) (f : Shroud → Shroud) (j : Nat) : (s.updShroud k f).core j = s.core j := rfl
@[simp] theorem State.updShroud_part (s : State) (k : Nat) (f : Shroud → Shroud) (j : Nat) : (s.updShroud k f).part j = s.part j := rfl
@[simp] theorem State.setPart_ctx (s : State) (p : Nat) (x : Part) (j : Nat) : (s.setPart p x).ctx j = s.ctx j := rfl
@[simp] theorem State.setPart_core (s : State) (p : Nat) (x : Part) (j : Nat) : (s.setPart p x).core j = s.core j := rfl
@[simp] theorem State.setPart_shroud (s : State) (p : Nat) (x : Part) (j : Nat) : (s.setPart p x).shroud j = s.shroud j := rfl
@[simp] theorem State.setPart_partOf (s : State) (p : Nat) (x : Part) (j : Nat) : (s.setPart p x).partOf j = s.partOf j := rfl
@[simp] theorem State.setPart_partSize (s : State) (p : Nat) (x : Part) (j : Nat) : (s.setPart p x).partSize j = s.partSize j := rfl
@[simp] theorem State.setPart_inPart (s : State) (p : Nat) (x : Part) (q : Nat) (j : Nat) : (s.setPart p x).inPart q j = s.inPart q j := rfl
@[simp] theorem State.setPart_partCores (s : State) (p : Nat) (x : Part) (q : Nat) : (s.setPart p x).partCores q = s.partCores q := rfl
@[simp] theorem State.updPart_ctx (s : State) (p : Nat) (f : Part → Part) (j : Nat) : (s.updPart p f).ctx j = s.ctx j := rfl
@[simp] theorem State.updPart_core (s : State) (p : Nat) (f : Part → Part) (j : Nat) : (s.updPart p f).core j = s.core j := rfl
@[simp] theorem State.updPart_shroud (s : State) (p : Nat) (f : Part → Part) (j : Nat) : (s.updPart p f).shroud j = s.shroud j := rfl
@[simp] theorem State.updPart_partOf (s : State) (p : Nat) (f : Part → Part) (j : Nat) : (s.updPart p f).partOf j = s.partOf j := rfl
@[simp] theorem State.updPart_partSize (s : State) (p : Nat) (f : Part → Part) (j : Nat) : (s.updPart p f).partSize j = s.partSize j := rfl
@[simp] theorem State.updPart_inPart (s : State) (p : Nat) (f : Part → Part) (q : Nat) (j : Nat) : (s.updPart p f).inPart q j = s.inPart q j := rfl
@[simp] theorem State.updPart_partCores (s : State) (p : Nat) (f : Part → Part) (q : Nat) : (s.updPart p f).partCores q = s.partCores q := rfl
@[simp] theorem State.updLaunch_ctx (s : State) (l : Nat) (f : Launch → Launch) (j : Nat) : (s.updLaunch l f).ctx j = s.ctx j := rfl
@[simp] theorem State.updLaunch_core (s : State) (l : Nat) (f : Launch → Launch) (j : Nat) : (s.updLaunch l f).core j = s.core j := rfl
@[simp] theorem State.updLaunch_shroud (s : State) (l : Nat) (f : Launch → Launch) (j : Nat) : (s.updLaunch l f).shroud j = s.shroud j := rfl
@[simp] theorem State.updLaunch_part (s : State) (l : Nat) (f : Launch → Launch) (j : Nat) : (s.updLaunch l f).part j = s.part j := rfl
@[simp] theorem State.updLaunch_partOf (s : State) (l : Nat) (f : Launch → Launch) (j : Nat) : (s.updLaunch l f).partOf j = s.partOf j := rfl
@[simp] theorem State.updLaunch_partSize (s : State) (l : Nat) (f : Launch → Launch) (j : Nat) : (s.updLaunch l f).partSize j = s.partSize j := rfl
@[simp] theorem State.updLaunch_inPart (s : State) (l : Nat) (f : Launch → Launch) (q : Nat) (j : Nat) : (s.updLaunch l f).inPart q j = s.inPart q j := rfl
@[simp] theorem State.updLaunch_partCores (s : State) (l : Nat) (f : Launch → Launch) (q : Nat) : (s.updLaunch l f).partCores q = s.partCores q := rfl
@[simp] theorem State.updThread_ctx (s : State) (id : Nat) (f : Thread → Thread) (j : Nat) : (s.updThread id f).ctx j = s.ctx j := rfl
@[simp] theorem State.updThread_core (s : State) (id : Nat) (f : Thread → Thread) (j : Nat) : (s.updThread id f).core j = s.core j := rfl
@[simp] theorem State.updThread_shroud (s : State) (id : Nat) (f : Thread → Thread) (j : Nat) : (s.updThread id f).shroud j = s.shroud j := rfl
@[simp] theorem State.updThread_part (s : State) (id : Nat) (f : Thread → Thread) (j : Nat) : (s.updThread id f).part j = s.part j := rfl
@[simp] theorem State.updThread_partOf (s : State) (id : Nat) (f : Thread → Thread) (j : Nat) : (s.updThread id f).partOf j = s.partOf j := rfl
@[simp] theorem State.updThread_partSize (s : State) (id : Nat) (f : Thread → Thread) (j : Nat) : (s.updThread id f).partSize j = s.partSize j := rfl
@[simp] theorem State.updThread_inPart (s : State) (id : Nat) (f : Thread → Thread) (q : Nat) (j : Nat) : (s.updThread id f).inPart q j = s.inPart q j := rfl
@[simp] theorem State.updThread_partCores (s : State) (id : Nat) (f : Thread → Thread) (q : Nat) : (s.updThread id f).partCores q = s.partCores q := rfl
@[simp] theorem State.tick_ctx (s : State) (j : Nat) : (s.tick).ctx j = s.ctx j := rfl
@[simp] theorem State.tick_core (s : State) (j : Nat) : (s.tick).core j = s.core j := rfl
@[simp] theorem State.tick_shroud (s : State) (j : Nat) : (s.tick).shroud j = s.shroud j := rfl
@[simp] theorem State.tick_part (s : State) (j : Nat) : (s.tick).part j = s.part j := rfl
@[simp] theorem State.tick_partOf (s : State) (j : Nat) : (s.tick).partOf j = s.partOf j := rfl
@[simp] theorem State.tick_partSize (s : State) (j : Nat) : (s.tick).partSize j = s.partSize j := rfl
@[simp] theorem State.tick_inPart (s : State) (q : Nat) (j : Nat) : (s.tick).inPart q j = s.inPart q j := rfl
@[simp] theorem State.tick_partCores (s : State) (q : Nat) : (s.tick).partCores q = s.partCores q := rfl

@[simp] theorem State.setCtx_ctx_self (s : State) (g : Nat) (c : Ctx) : (s.setCtx g c).ctx g = c := Tab.get_set_self ..
@[simp] theorem State.updCtx_ctx_self (s : State) (g : Nat) (f : Ctx → Ctx) : (s.updCtx g f).ctx g = f (s.ctx g) := Tab.get_set_self ..
theorem State.setCtx_ctx_ne (s : State) {g h : Nat} (c : Ctx) (n : g ≠ h) : (s.setCtx g c).ctx h = s.ctx h := Tab.get_set_ne _ _ _ n
theorem State.updCtx_ctx_ne (s : State) {g h : Nat} (f : Ctx → Ctx) (n : g ≠ h) : (s.updCtx g f).ctx h = s.ctx h := Tab.get_set_ne _ _ _ n
@[simp] theorem State.setCore_core_self (s : State) (k : Nat) (c : Core) : (s.setCore k c).core k = c := Tab.get_set_self ..
@[simp] theorem State.updCore_core_self (s : State) (k : Nat) (f : Core → Core) : (s.updCore k f).core k = f (s.core k) := Tab.get_set_self ..
theorem State.setCore_core_ne (s : State) {k j : Nat} (c : Core) (n : k ≠ j) : (s.setCore k c).core j = s.core j := Tab.get_set_ne _ _ _ n
theorem State.updCore_core_ne (s : State) {k j : Nat} (f : Core → Core) (n : k ≠ j) : (s.updCore k f).core j = s.core j := Tab.get_set_ne _ _ _ n
@[simp] theorem State.setPart_part_self (s : State) (p : Nat) (x : Part) : (s.setPart p x).part p = x := Tab.get_set_self ..
@[simp] theorem State.updPart_part_self (s : State) (p : Nat) (f : Part → Part) : (s.updPart p f).part p = f (s.part p) := Tab.get_set_self ..
theorem State.setPart_part_ne (s : State) {p q : Nat} (x : Part) (n : p ≠ q) : (s.setPart p x).part q = s.part q := Tab.get_set_ne _ _ _ n
theorem State.updPart_part_ne (s : State) {p q : Nat} (f : Part → Part) (n : p ≠ q) : (s.updPart p f).part q = s.part q := Tab.get_set_ne _ _ _ n
@[simp] theorem State.setShroud_shroud_self (s : State) (k : Nat) (h : Shroud) : (s.setShroud k h).shroud k = h := by
  by_cases e : h = Shroud.reset k <;> simp [State.setShroud, State.shroud, e]
@[simp] theorem State.updShroud_shroud_self (s : State) (k : Nat) (f : Shroud → Shroud) : (s.updShroud k f).shroud k = f (s.shroud k) :=
  State.setShroud_shroud_self ..
theorem State.setShroud_shroud_ne (s : State) {k j : Nat} (h : Shroud) (n : k ≠ j) : (s.setShroud k h).shroud j = s.shroud j := by
  simp [State.setShroud, State.shroud, Tab.get_set_ne _ _ _ n]
theorem State.updShroud_shroud_ne (s : State) {k j : Nat} (f : Shroud → Shroud) (n : k ≠ j) : (s.updShroud k f).shroud j = s.shroud j :=
  State.setShroud_shroud_ne s _ n

@[simp] theorem Regs.setS_bt (r : Regs) (i : Nat) (w : Word) : (r.setS i w).bt = r.bt := by unfold Regs.setS; split <;> rfl
@[simp] theorem Regs.setS_pred (r : Regs) (i : Nat) (w : Word) : (r.setS i w).pred = r.pred := by unfold Regs.setS; split <;> rfl
@[simp] theorem Regs.setS_x (r : Regs) (i : Nat) (w : Word) : (r.setS i w).x = r.x := by unfold Regs.setS; split <;> rfl
@[simp] theorem Regs.setS_sc (r : Regs) (i : Nat) (w : Word) : (r.setS i w).sc = r.sc := by unfold Regs.setS; split <;> rfl
@[simp] theorem Regs.setS_latch (r : Regs) (i : Nat) (w : Word) : (r.setS i w).latch = r.latch := by unfold Regs.setS; split <;> rfl
@[simp] theorem Regs.setS_loops (r : Regs) (i : Nat) (w : Word) : (r.setS i w).loops = r.loops := by unfold Regs.setS; split <;> rfl
@[simp] theorem Regs.setS_pc (r : Regs) (i : Nat) (w : Word) : (r.setS i w).pc = r.pc := by unfold Regs.setS; split <;> rfl
@[simp] theorem Regs.setS_wu (r : Regs) (i : Nat) (w : Word) : (r.setS i w).wu = r.wu := by unfold Regs.setS; split <;> rfl
@[simp] theorem Regs.setS_trapVec (r : Regs) (i : Nat) (w : Word) : (r.setS i w).trapVec = r.trapVec := by unfold Regs.setS; split <;> rfl
@[simp] theorem Regs.setS_trapEpc (r : Regs) (i : Nat) (w : Word) : (r.setS i w).trapEpc = r.trapEpc := by unfold Regs.setS; split <;> rfl
@[simp] theorem Regs.setS_trapRec (r : Regs) (i : Nat) (w : Word) : (r.setS i w).trapRec = r.trapRec := by unfold Regs.setS; split <;> rfl
@[simp] theorem Regs.setS_inHandler (r : Regs) (i : Nat) (w : Word) : (r.setS i w).inHandler = r.inHandler := by unfold Regs.setS; split <;> rfl
@[simp] theorem Regs.setS_inSeg (r : Regs) (i : Nat) (w : Word) : (r.setS i w).inSeg = r.inSeg := by unfold Regs.setS; split <;> rfl
@[simp] theorem Regs.setS_step (r : Regs) (i : Nat) (w : Word) : (r.setS i w).step = r.step := by unfold Regs.setS; split <;> rfl
@[simp] theorem Regs.setS_blocked (r : Regs) (i : Nat) (w : Word) : (r.setS i w).blocked = r.blocked := by unfold Regs.setS; split <;> rfl
@[simp] theorem Regs.setS_fpstat (r : Regs) (i : Nat) (w : Word) : (r.setS i w).fpstat = r.fpstat := by unfold Regs.setS; split <;> rfl
@[simp] theorem Regs.setS_sse (r : Regs) (i : Nat) (w : Word) : (r.setS i w).sse = r.sse := by unfold Regs.setS; split <;> rfl
@[simp] theorem Regs.setS_cnt (r : Regs) (i : Nat) (w : Word) : (r.setS i w).cnt = r.cnt := by unfold Regs.setS; split <;> rfl
@[simp] theorem Regs.setS_segBase (r : Regs) (i : Nat) (w : Word) : (r.setS i w).segBase = r.segBase := by unfold Regs.setS; split <;> rfl
@[simp] theorem Regs.setS_segCount (r : Regs) (i : Nat) (w : Word) : (r.setS i w).segCount = r.segCount := by unfold Regs.setS; split <;> rfl
@[simp] theorem Regs.setS_segText (r : Regs) (i : Nat) (w : Word) : (r.setS i w).segText = r.segText := by unfold Regs.setS; split <;> rfl
@[simp] theorem Regs.setBt_s (r : Regs) (i : Nat) (w : Word) : (r.setBt i w).s = r.s := rfl
@[simp] theorem Regs.setBt_pred (r : Regs) (i : Nat) (w : Word) : (r.setBt i w).pred = r.pred := rfl
@[simp] theorem Regs.setBt_x (r : Regs) (i : Nat) (w : Word) : (r.setBt i w).x = r.x := rfl
@[simp] theorem Regs.setBt_sc (r : Regs) (i : Nat) (w : Word) : (r.setBt i w).sc = r.sc := rfl
@[simp] theorem Regs.setBt_latch (r : Regs) (i : Nat) (w : Word) : (r.setBt i w).latch = r.latch := rfl
@[simp] theorem Regs.setBt_loops (r : Regs) (i : Nat) (w : Word) : (r.setBt i w).loops = r.loops := rfl
@[simp] theorem Regs.setBt_pc (r : Regs) (i : Nat) (w : Word) : (r.setBt i w).pc = r.pc := rfl
@[simp] theorem Regs.setBt_wu (r : Regs) (i : Nat) (w : Word) : (r.setBt i w).wu = r.wu := rfl
@[simp] theorem Regs.setBt_trapVec (r : Regs) (i : Nat) (w : Word) : (r.setBt i w).trapVec = r.trapVec := rfl
@[simp] theorem Regs.setBt_trapEpc (r : Regs) (i : Nat) (w : Word) : (r.setBt i w).trapEpc = r.trapEpc := rfl
@[simp] theorem Regs.setBt_trapRec (r : Regs) (i : Nat) (w : Word) : (r.setBt i w).trapRec = r.trapRec := rfl
@[simp] theorem Regs.setBt_inHandler (r : Regs) (i : Nat) (w : Word) : (r.setBt i w).inHandler = r.inHandler := rfl
@[simp] theorem Regs.setBt_inSeg (r : Regs) (i : Nat) (w : Word) : (r.setBt i w).inSeg = r.inSeg := rfl
@[simp] theorem Regs.setBt_step (r : Regs) (i : Nat) (w : Word) : (r.setBt i w).step = r.step := rfl
@[simp] theorem Regs.setBt_blocked (r : Regs) (i : Nat) (w : Word) : (r.setBt i w).blocked = r.blocked := rfl
@[simp] theorem Regs.setBt_fpstat (r : Regs) (i : Nat) (w : Word) : (r.setBt i w).fpstat = r.fpstat := rfl
@[simp] theorem Regs.setBt_sse (r : Regs) (i : Nat) (w : Word) : (r.setBt i w).sse = r.sse := rfl
@[simp] theorem Regs.setBt_cnt (r : Regs) (i : Nat) (w : Word) : (r.setBt i w).cnt = r.cnt := rfl
@[simp] theorem Regs.setBt_segBase (r : Regs) (i : Nat) (w : Word) : (r.setBt i w).segBase = r.segBase := rfl
@[simp] theorem Regs.setBt_segCount (r : Regs) (i : Nat) (w : Word) : (r.setBt i w).segCount = r.segCount := rfl
@[simp] theorem Regs.setBt_segText (r : Regs) (i : Nat) (w : Word) : (r.setBt i w).segText = r.segText := rfl
@[simp] theorem Regs.setPair_s (r : Regs) (j : Nat) (b : Bool) : (r.setPair j b).s = r.s := by unfold Regs.setPair; split <;> rfl
@[simp] theorem Regs.setPair_bt (r : Regs) (j : Nat) (b : Bool) : (r.setPair j b).bt = r.bt := by unfold Regs.setPair; split <;> rfl
@[simp] theorem Regs.setPair_x (r : Regs) (j : Nat) (b : Bool) : (r.setPair j b).x = r.x := by unfold Regs.setPair; split <;> rfl
@[simp] theorem Regs.setPair_sc (r : Regs) (j : Nat) (b : Bool) : (r.setPair j b).sc = r.sc := by unfold Regs.setPair; split <;> rfl
@[simp] theorem Regs.setPair_latch (r : Regs) (j : Nat) (b : Bool) : (r.setPair j b).latch = r.latch := by unfold Regs.setPair; split <;> rfl
@[simp] theorem Regs.setPair_loops (r : Regs) (j : Nat) (b : Bool) : (r.setPair j b).loops = r.loops := by unfold Regs.setPair; split <;> rfl
@[simp] theorem Regs.setPair_pc (r : Regs) (j : Nat) (b : Bool) : (r.setPair j b).pc = r.pc := by unfold Regs.setPair; split <;> rfl
@[simp] theorem Regs.setPair_wu (r : Regs) (j : Nat) (b : Bool) : (r.setPair j b).wu = r.wu := by unfold Regs.setPair; split <;> rfl
@[simp] theorem Regs.setPair_trapVec (r : Regs) (j : Nat) (b : Bool) : (r.setPair j b).trapVec = r.trapVec := by unfold Regs.setPair; split <;> rfl
@[simp] theorem Regs.setPair_trapEpc (r : Regs) (j : Nat) (b : Bool) : (r.setPair j b).trapEpc = r.trapEpc := by unfold Regs.setPair; split <;> rfl
@[simp] theorem Regs.setPair_trapRec (r : Regs) (j : Nat) (b : Bool) : (r.setPair j b).trapRec = r.trapRec := by unfold Regs.setPair; split <;> rfl
@[simp] theorem Regs.setPair_inHandler (r : Regs) (j : Nat) (b : Bool) : (r.setPair j b).inHandler = r.inHandler := by unfold Regs.setPair; split <;> rfl
@[simp] theorem Regs.setPair_inSeg (r : Regs) (j : Nat) (b : Bool) : (r.setPair j b).inSeg = r.inSeg := by unfold Regs.setPair; split <;> rfl
@[simp] theorem Regs.setPair_step (r : Regs) (j : Nat) (b : Bool) : (r.setPair j b).step = r.step := by unfold Regs.setPair; split <;> rfl
@[simp] theorem Regs.setPair_blocked (r : Regs) (j : Nat) (b : Bool) : (r.setPair j b).blocked = r.blocked := by unfold Regs.setPair; split <;> rfl
@[simp] theorem Regs.setPair_fpstat (r : Regs) (j : Nat) (b : Bool) : (r.setPair j b).fpstat = r.fpstat := by unfold Regs.setPair; split <;> rfl
@[simp] theorem Regs.setPair_sse (r : Regs) (j : Nat) (b : Bool) : (r.setPair j b).sse = r.sse := by unfold Regs.setPair; split <;> rfl
@[simp] theorem Regs.setPair_cnt (r : Regs) (j : Nat) (b : Bool) : (r.setPair j b).cnt = r.cnt := by unfold Regs.setPair; split <;> rfl
@[simp] theorem Regs.setPair_segBase (r : Regs) (j : Nat) (b : Bool) : (r.setPair j b).segBase = r.segBase := by unfold Regs.setPair; split <;> rfl
@[simp] theorem Regs.setPair_segCount (r : Regs) (j : Nat) (b : Bool) : (r.setPair j b).segCount = r.segCount := by unfold Regs.setPair; split <;> rfl
@[simp] theorem Regs.setPair_segText (r : Regs) (j : Nat) (b : Bool) : (r.setPair j b).segText = r.segText := by unfold Regs.setPair; split <;> rfl
@[simp] theorem Regs.setX_s (r : Regs) (i v : Nat) : (r.setX i v).s = r.s := rfl
@[simp] theorem Regs.setX_bt (r : Regs) (i v : Nat) : (r.setX i v).bt = r.bt := rfl
@[simp] theorem Regs.setX_pred (r : Regs) (i v : Nat) : (r.setX i v).pred = r.pred := rfl
@[simp] theorem Regs.setX_sc (r : Regs) (i v : Nat) : (r.setX i v).sc = r.sc := rfl
@[simp] theorem Regs.setX_latch (r : Regs) (i v : Nat) : (r.setX i v).latch = r.latch := rfl
@[simp] theorem Regs.setX_loops (r : Regs) (i v : Nat) : (r.setX i v).loops = r.loops := rfl
@[simp] theorem Regs.setX_pc (r : Regs) (i v : Nat) : (r.setX i v).pc = r.pc := rfl
@[simp] theorem Regs.setX_wu (r : Regs) (i v : Nat) : (r.setX i v).wu = r.wu := rfl
@[simp] theorem Regs.setX_trapVec (r : Regs) (i v : Nat) : (r.setX i v).trapVec = r.trapVec := rfl
@[simp] theorem Regs.setX_trapEpc (r : Regs) (i v : Nat) : (r.setX i v).trapEpc = r.trapEpc := rfl
@[simp] theorem Regs.setX_trapRec (r : Regs) (i v : Nat) : (r.setX i v).trapRec = r.trapRec := rfl
@[simp] theorem Regs.setX_inHandler (r : Regs) (i v : Nat) : (r.setX i v).inHandler = r.inHandler := rfl
@[simp] theorem Regs.setX_inSeg (r : Regs) (i v : Nat) : (r.setX i v).inSeg = r.inSeg := rfl
@[simp] theorem Regs.setX_step (r : Regs) (i v : Nat) : (r.setX i v).step = r.step := rfl
@[simp] theorem Regs.setX_blocked (r : Regs) (i v : Nat) : (r.setX i v).blocked = r.blocked := rfl
@[simp] theorem Regs.setX_fpstat (r : Regs) (i v : Nat) : (r.setX i v).fpstat = r.fpstat := rfl
@[simp] theorem Regs.setX_sse (r : Regs) (i v : Nat) : (r.setX i v).sse = r.sse := rfl
@[simp] theorem Regs.setX_cnt (r : Regs) (i v : Nat) : (r.setX i v).cnt = r.cnt := rfl
@[simp] theorem Regs.setX_segBase (r : Regs) (i v : Nat) : (r.setX i v).segBase = r.segBase := rfl
@[simp] theorem Regs.setX_segCount (r : Regs) (i v : Nat) : (r.setX i v).segCount = r.segCount := rfl
@[simp] theorem Regs.setX_segText (r : Regs) (i v : Nat) : (r.setX i v).segText = r.segText := rfl
@[simp] theorem Regs.setSc_s (r : Regs) (i : Nat) (v : Row) : (r.setSc i v).s = r.s := rfl
@[simp] theorem Regs.setSc_bt (r : Regs) (i : Nat) (v : Row) : (r.setSc i v).bt = r.bt := rfl
@[simp] theorem Regs.setSc_pred (r : Regs) (i : Nat) (v : Row) : (r.setSc i v).pred = r.pred := rfl
@[simp] theorem Regs.setSc_x (r : Regs) (i : Nat) (v : Row) : (r.setSc i v).x = r.x := rfl
@[simp] theorem Regs.setSc_latch (r : Regs) (i : Nat) (v : Row) : (r.setSc i v).latch = r.latch := rfl
@[simp] theorem Regs.setSc_loops (r : Regs) (i : Nat) (v : Row) : (r.setSc i v).loops = r.loops := rfl
@[simp] theorem Regs.setSc_pc (r : Regs) (i : Nat) (v : Row) : (r.setSc i v).pc = r.pc := rfl
@[simp] theorem Regs.setSc_wu (r : Regs) (i : Nat) (v : Row) : (r.setSc i v).wu = r.wu := rfl
@[simp] theorem Regs.setSc_trapVec (r : Regs) (i : Nat) (v : Row) : (r.setSc i v).trapVec = r.trapVec := rfl
@[simp] theorem Regs.setSc_trapEpc (r : Regs) (i : Nat) (v : Row) : (r.setSc i v).trapEpc = r.trapEpc := rfl
@[simp] theorem Regs.setSc_trapRec (r : Regs) (i : Nat) (v : Row) : (r.setSc i v).trapRec = r.trapRec := rfl
@[simp] theorem Regs.setSc_inHandler (r : Regs) (i : Nat) (v : Row) : (r.setSc i v).inHandler = r.inHandler := rfl
@[simp] theorem Regs.setSc_inSeg (r : Regs) (i : Nat) (v : Row) : (r.setSc i v).inSeg = r.inSeg := rfl
@[simp] theorem Regs.setSc_step (r : Regs) (i : Nat) (v : Row) : (r.setSc i v).step = r.step := rfl
@[simp] theorem Regs.setSc_blocked (r : Regs) (i : Nat) (v : Row) : (r.setSc i v).blocked = r.blocked := rfl
@[simp] theorem Regs.setSc_fpstat (r : Regs) (i : Nat) (v : Row) : (r.setSc i v).fpstat = r.fpstat := rfl
@[simp] theorem Regs.setSc_sse (r : Regs) (i : Nat) (v : Row) : (r.setSc i v).sse = r.sse := rfl
@[simp] theorem Regs.setSc_cnt (r : Regs) (i : Nat) (v : Row) : (r.setSc i v).cnt = r.cnt := rfl
@[simp] theorem Regs.setSc_segBase (r : Regs) (i : Nat) (v : Row) : (r.setSc i v).segBase = r.segBase := rfl
@[simp] theorem Regs.setSc_segCount (r : Regs) (i : Nat) (v : Row) : (r.setSc i v).segCount = r.segCount := rfl
@[simp] theorem Regs.setSc_segText (r : Regs) (i : Nat) (v : Row) : (r.setSc i v).segText = r.segText := rfl
@[simp] theorem Regs.setLatch_s (r : Regs) (i : Nat) (v : Row) : (r.setLatch i v).s = r.s := rfl
@[simp] theorem Regs.setLatch_bt (r : Regs) (i : Nat) (v : Row) : (r.setLatch i v).bt = r.bt := rfl
@[simp] theorem Regs.setLatch_pred (r : Regs) (i : Nat) (v : Row) : (r.setLatch i v).pred = r.pred := rfl
@[simp] theorem Regs.setLatch_x (r : Regs) (i : Nat) (v : Row) : (r.setLatch i v).x = r.x := rfl
@[simp] theorem Regs.setLatch_sc (r : Regs) (i : Nat) (v : Row) : (r.setLatch i v).sc = r.sc := rfl
@[simp] theorem Regs.setLatch_loops (r : Regs) (i : Nat) (v : Row) : (r.setLatch i v).loops = r.loops := rfl
@[simp] theorem Regs.setLatch_pc (r : Regs) (i : Nat) (v : Row) : (r.setLatch i v).pc = r.pc := rfl
@[simp] theorem Regs.setLatch_wu (r : Regs) (i : Nat) (v : Row) : (r.setLatch i v).wu = r.wu := rfl
@[simp] theorem Regs.setLatch_trapVec (r : Regs) (i : Nat) (v : Row) : (r.setLatch i v).trapVec = r.trapVec := rfl
@[simp] theorem Regs.setLatch_trapEpc (r : Regs) (i : Nat) (v : Row) : (r.setLatch i v).trapEpc = r.trapEpc := rfl
@[simp] theorem Regs.setLatch_trapRec (r : Regs) (i : Nat) (v : Row) : (r.setLatch i v).trapRec = r.trapRec := rfl
@[simp] theorem Regs.setLatch_inHandler (r : Regs) (i : Nat) (v : Row) : (r.setLatch i v).inHandler = r.inHandler := rfl
@[simp] theorem Regs.setLatch_inSeg (r : Regs) (i : Nat) (v : Row) : (r.setLatch i v).inSeg = r.inSeg := rfl
@[simp] theorem Regs.setLatch_step (r : Regs) (i : Nat) (v : Row) : (r.setLatch i v).step = r.step := rfl
@[simp] theorem Regs.setLatch_blocked (r : Regs) (i : Nat) (v : Row) : (r.setLatch i v).blocked = r.blocked := rfl
@[simp] theorem Regs.setLatch_fpstat (r : Regs) (i : Nat) (v : Row) : (r.setLatch i v).fpstat = r.fpstat := rfl
@[simp] theorem Regs.setLatch_sse (r : Regs) (i : Nat) (v : Row) : (r.setLatch i v).sse = r.sse := rfl
@[simp] theorem Regs.setLatch_cnt (r : Regs) (i : Nat) (v : Row) : (r.setLatch i v).cnt = r.cnt := rfl
@[simp] theorem Regs.setLatch_segBase (r : Regs) (i : Nat) (v : Row) : (r.setLatch i v).segBase = r.segBase := rfl
@[simp] theorem Regs.setLatch_segCount (r : Regs) (i : Nat) (v : Row) : (r.setLatch i v).segCount = r.segCount := rfl
@[simp] theorem Regs.setLatch_segText (r : Regs) (i : Nat) (v : Row) : (r.setLatch i v).segText = r.segText := rfl
@[simp] theorem Regs.emptyLatches_s (r : Regs) : (r.emptyLatches).s = r.s := rfl
@[simp] theorem Regs.emptyLatches_bt (r : Regs) : (r.emptyLatches).bt = r.bt := rfl
@[simp] theorem Regs.emptyLatches_pred (r : Regs) : (r.emptyLatches).pred = r.pred := rfl
@[simp] theorem Regs.emptyLatches_x (r : Regs) : (r.emptyLatches).x = r.x := rfl
@[simp] theorem Regs.emptyLatches_sc (r : Regs) : (r.emptyLatches).sc = r.sc := rfl
@[simp] theorem Regs.emptyLatches_loops (r : Regs) : (r.emptyLatches).loops = r.loops := rfl
@[simp] theorem Regs.emptyLatches_pc (r : Regs) : (r.emptyLatches).pc = r.pc := rfl
@[simp] theorem Regs.emptyLatches_wu (r : Regs) : (r.emptyLatches).wu = r.wu := rfl
@[simp] theorem Regs.emptyLatches_trapVec (r : Regs) : (r.emptyLatches).trapVec = r.trapVec := rfl
@[simp] theorem Regs.emptyLatches_trapEpc (r : Regs) : (r.emptyLatches).trapEpc = r.trapEpc := rfl
@[simp] theorem Regs.emptyLatches_trapRec (r : Regs) : (r.emptyLatches).trapRec = r.trapRec := rfl
@[simp] theorem Regs.emptyLatches_inHandler (r : Regs) : (r.emptyLatches).inHandler = r.inHandler := rfl
@[simp] theorem Regs.emptyLatches_inSeg (r : Regs) : (r.emptyLatches).inSeg = r.inSeg := rfl
@[simp] theorem Regs.emptyLatches_step (r : Regs) : (r.emptyLatches).step = r.step := rfl
@[simp] theorem Regs.emptyLatches_blocked (r : Regs) : (r.emptyLatches).blocked = r.blocked := rfl
@[simp] theorem Regs.emptyLatches_fpstat (r : Regs) : (r.emptyLatches).fpstat = r.fpstat := rfl
@[simp] theorem Regs.emptyLatches_sse (r : Regs) : (r.emptyLatches).sse = r.sse := rfl
@[simp] theorem Regs.emptyLatches_cnt (r : Regs) : (r.emptyLatches).cnt = r.cnt := rfl
@[simp] theorem Regs.emptyLatches_segBase (r : Regs) : (r.emptyLatches).segBase = r.segBase := rfl
@[simp] theorem Regs.emptyLatches_segCount (r : Regs) : (r.emptyLatches).segCount = r.segCount := rfl
@[simp] theorem Regs.emptyLatches_segText (r : Regs) : (r.emptyLatches).segText = r.segText := rfl
@[simp] theorem Ctx.setV_regs (c : Ctx) (i : Nat) (v : Row) : (c.setV i v).regs = c.regs := rfl
@[simp] theorem Ctx.setV_flights (c : Ctx) (i : Nat) (v : Row) : (c.setV i v).flights = c.flights := rfl
@[simp] theorem Ctx.setV_bubble (c : Ctx) (i : Nat) (v : Row) : (c.setV i v).bubble = c.bubble := rfl
@[simp] theorem Ctx.setV_waited (c : Ctx) (i : Nat) (v : Row) : (c.setV i v).waited = c.waited := rfl
@[simp] theorem Ctx.setV_recOld (c : Ctx) (i : Nat) (v : Row) : (c.setV i v).recOld = c.recOld := rfl
@[simp] theorem Ctx.setV_recWaited (c : Ctx) (i : Nat) (v : Row) : (c.setV i v).recWaited = c.recWaited := rfl
@[simp] theorem Ctx.setV_recDests (c : Ctx) (i : Nat) (v : Row) : (c.setV i v).recDests = c.recDests := rfl
@[simp] theorem Ctx.setV_parity (c : Ctx) (i : Nat) (v : Row) : (c.setV i v).parity = c.parity := rfl
@[simp] theorem Ctx.setV_busy (c : Ctx) (i : Nat) (v : Row) : (c.setV i v).busy = c.busy := rfl
@[simp] theorem Ctx.setV_marks (c : Ctx) (i : Nat) (v : Row) : (c.setV i v).marks = c.marks := rfl
@[simp] theorem Ctx.setV_pend (c : Ctx) (i : Nat) (v : Row) : (c.setV i v).pend = c.pend := rfl
@[simp] theorem Ctx.setV_ending (c : Ctx) (i : Nat) (v : Row) : (c.setV i v).ending = c.ending := rfl
@[simp] theorem Ctx.setV_preempt (c : Ctx) (i : Nat) (v : Row) : (c.setV i v).preempt = c.preempt := rfl
@[simp] theorem Ctx.setV_avoid (c : Ctx) (i : Nat) (v : Row) : (c.setV i v).avoid = c.avoid := rfl
@[simp] theorem Ctx.setV_yielding (c : Ctx) (i : Nat) (v : Row) : (c.setV i v).yielding = c.yielding := rfl
@[simp] theorem Ctx.setV_arrived (c : Ctx) (i : Nat) (v : Row) : (c.setV i v).arrived = c.arrived := rfl
@[simp] theorem Ctx.setV_released (c : Ctx) (i : Nat) (v : Row) : (c.setV i v).released = c.released := rfl
@[simp] theorem Ctx.setV_td (c : Ctx) (i : Nat) (v : Row) : (c.setV i v).td = c.td := rfl
@[simp] theorem Ctx.setV_cpat (c : Ctx) (i : Nat) (v : Row) : (c.setV i v).cpat = c.cpat := rfl
@[simp] theorem Ctx.setV_astat (c : Ctx) (i : Nat) (v : Row) : (c.setV i v).astat = c.astat := rfl
@[simp] theorem Ctx.setV_drainSum (c : Ctx) (i : Nat) (v : Row) : (c.setV i v).drainSum = c.drainSum := rfl
@[simp] theorem Ctx.setV_drainCnt (c : Ctx) (i : Nat) (v : Row) : (c.setV i v).drainCnt = c.drainCnt := rfl
@[simp] theorem Ctx.setV_lastLen (c : Ctx) (i : Nat) (v : Row) : (c.setV i v).lastLen = c.lastLen := rfl
@[simp] theorem Ctx.setV_lastPages (c : Ctx) (i : Nat) (v : Row) : (c.setV i v).lastPages = c.lastPages := rfl
@[simp] theorem Ctx.setV_unit (c : Ctx) (i : Nat) (v : Row) : (c.setV i v).unit = c.unit := rfl
@[simp] theorem Ctx.setV_taken (c : Ctx) (i : Nat) (v : Row) : (c.setV i v).taken = c.taken := rfl
@[simp] theorem Ctx.setV_acts (c : Ctx) (i : Nat) (v : Row) : (c.setV i v).acts = c.acts := rfl
@[simp] theorem Ctx.setV_seg (c : Ctx) (i : Nat) (v : Row) : (c.setV i v).seg = c.seg := rfl
@[simp] theorem Ctx.setV_attached (c : Ctx) (i : Nat) (v : Row) : (c.setV i v).attached = c.attached := rfl
@[simp] theorem Ctx.setV_stopped (c : Ctx) (i : Nat) (v : Row) : (c.setV i v).stopped = c.stopped := rfl
@[simp] theorem Ctx.setV_owned (c : Ctx) (i : Nat) (v : Row) : (c.setV i v).owned = c.owned := rfl
@[simp] theorem Ctx.setV_perfSteps (c : Ctx) (i : Nat) (v : Row) : (c.setV i v).perfSteps = c.perfSteps := rfl
@[simp] theorem Ctx.setV_perfIssue (c : Ctx) (i : Nat) (v : Row) : (c.setV i v).perfIssue = c.perfIssue := rfl
@[simp] theorem Ctx.setV_perfStall (c : Ctx) (i : Nat) (v : Row) : (c.setV i v).perfStall = c.perfStall := rfl
@[simp] theorem Ctx.setV_perfEng (c : Ctx) (i : Nat) (v : Row) : (c.setV i v).perfEng = c.perfEng := rfl
@[simp] theorem Ctx.setV_dropped (c : Ctx) (i : Nat) (v : Row) : (c.setV i v).dropped = c.dropped := rfl
@[simp] theorem Ctx.updRegs_v (c : Ctx) (f : Regs → Regs) : (c.updRegs f).v = c.v := rfl
@[simp] theorem Ctx.updRegs_flights (c : Ctx) (f : Regs → Regs) : (c.updRegs f).flights = c.flights := rfl
@[simp] theorem Ctx.updRegs_bubble (c : Ctx) (f : Regs → Regs) : (c.updRegs f).bubble = c.bubble := rfl
@[simp] theorem Ctx.updRegs_waited (c : Ctx) (f : Regs → Regs) : (c.updRegs f).waited = c.waited := rfl
@[simp] theorem Ctx.updRegs_recOld (c : Ctx) (f : Regs → Regs) : (c.updRegs f).recOld = c.recOld := rfl
@[simp] theorem Ctx.updRegs_recWaited (c : Ctx) (f : Regs → Regs) : (c.updRegs f).recWaited = c.recWaited := rfl
@[simp] theorem Ctx.updRegs_recDests (c : Ctx) (f : Regs → Regs) : (c.updRegs f).recDests = c.recDests := rfl
@[simp] theorem Ctx.updRegs_parity (c : Ctx) (f : Regs → Regs) : (c.updRegs f).parity = c.parity := rfl
@[simp] theorem Ctx.updRegs_busy (c : Ctx) (f : Regs → Regs) : (c.updRegs f).busy = c.busy := rfl
@[simp] theorem Ctx.updRegs_marks (c : Ctx) (f : Regs → Regs) : (c.updRegs f).marks = c.marks := rfl
@[simp] theorem Ctx.updRegs_pend (c : Ctx) (f : Regs → Regs) : (c.updRegs f).pend = c.pend := rfl
@[simp] theorem Ctx.updRegs_ending (c : Ctx) (f : Regs → Regs) : (c.updRegs f).ending = c.ending := rfl
@[simp] theorem Ctx.updRegs_preempt (c : Ctx) (f : Regs → Regs) : (c.updRegs f).preempt = c.preempt := rfl
@[simp] theorem Ctx.updRegs_avoid (c : Ctx) (f : Regs → Regs) : (c.updRegs f).avoid = c.avoid := rfl
@[simp] theorem Ctx.updRegs_yielding (c : Ctx) (f : Regs → Regs) : (c.updRegs f).yielding = c.yielding := rfl
@[simp] theorem Ctx.updRegs_arrived (c : Ctx) (f : Regs → Regs) : (c.updRegs f).arrived = c.arrived := rfl
@[simp] theorem Ctx.updRegs_released (c : Ctx) (f : Regs → Regs) : (c.updRegs f).released = c.released := rfl
@[simp] theorem Ctx.updRegs_td (c : Ctx) (f : Regs → Regs) : (c.updRegs f).td = c.td := rfl
@[simp] theorem Ctx.updRegs_cpat (c : Ctx) (f : Regs → Regs) : (c.updRegs f).cpat = c.cpat := rfl
@[simp] theorem Ctx.updRegs_astat (c : Ctx) (f : Regs → Regs) : (c.updRegs f).astat = c.astat := rfl
@[simp] theorem Ctx.updRegs_drainSum (c : Ctx) (f : Regs → Regs) : (c.updRegs f).drainSum = c.drainSum := rfl
@[simp] theorem Ctx.updRegs_drainCnt (c : Ctx) (f : Regs → Regs) : (c.updRegs f).drainCnt = c.drainCnt := rfl
@[simp] theorem Ctx.updRegs_lastLen (c : Ctx) (f : Regs → Regs) : (c.updRegs f).lastLen = c.lastLen := rfl
@[simp] theorem Ctx.updRegs_lastPages (c : Ctx) (f : Regs → Regs) : (c.updRegs f).lastPages = c.lastPages := rfl
@[simp] theorem Ctx.updRegs_unit (c : Ctx) (f : Regs → Regs) : (c.updRegs f).unit = c.unit := rfl
@[simp] theorem Ctx.updRegs_taken (c : Ctx) (f : Regs → Regs) : (c.updRegs f).taken = c.taken := rfl
@[simp] theorem Ctx.updRegs_acts (c : Ctx) (f : Regs → Regs) : (c.updRegs f).acts = c.acts := rfl
@[simp] theorem Ctx.updRegs_seg (c : Ctx) (f : Regs → Regs) : (c.updRegs f).seg = c.seg := rfl
@[simp] theorem Ctx.updRegs_attached (c : Ctx) (f : Regs → Regs) : (c.updRegs f).attached = c.attached := rfl
@[simp] theorem Ctx.updRegs_stopped (c : Ctx) (f : Regs → Regs) : (c.updRegs f).stopped = c.stopped := rfl
@[simp] theorem Ctx.updRegs_owned (c : Ctx) (f : Regs → Regs) : (c.updRegs f).owned = c.owned := rfl
@[simp] theorem Ctx.updRegs_perfSteps (c : Ctx) (f : Regs → Regs) : (c.updRegs f).perfSteps = c.perfSteps := rfl
@[simp] theorem Ctx.updRegs_perfIssue (c : Ctx) (f : Regs → Regs) : (c.updRegs f).perfIssue = c.perfIssue := rfl
@[simp] theorem Ctx.updRegs_perfStall (c : Ctx) (f : Regs → Regs) : (c.updRegs f).perfStall = c.perfStall := rfl
@[simp] theorem Ctx.updRegs_perfEng (c : Ctx) (f : Regs → Regs) : (c.updRegs f).perfEng = c.perfEng := rfl
@[simp] theorem Ctx.updRegs_dropped (c : Ctx) (f : Regs → Regs) : (c.updRegs f).dropped = c.dropped := rfl
@[simp] theorem Ctx.clearMark_regs (c : Ctx) (key : Nat) : (c.clearMark key).regs = c.regs := rfl
@[simp] theorem Ctx.clearMark_v (c : Ctx) (key : Nat) : (c.clearMark key).v = c.v := rfl
@[simp] theorem Ctx.clearMark_flights (c : Ctx) (key : Nat) : (c.clearMark key).flights = c.flights := rfl
@[simp] theorem Ctx.clearMark_bubble (c : Ctx) (key : Nat) : (c.clearMark key).bubble = c.bubble := rfl
@[simp] theorem Ctx.clearMark_waited (c : Ctx) (key : Nat) : (c.clearMark key).waited = c.waited := rfl
@[simp] theorem Ctx.clearMark_recOld (c : Ctx) (key : Nat) : (c.clearMark key).recOld = c.recOld := rfl
@[simp] theorem Ctx.clearMark_recWaited (c : Ctx) (key : Nat) : (c.clearMark key).recWaited = c.recWaited := rfl
@[simp] theorem Ctx.clearMark_recDests (c : Ctx) (key : Nat) : (c.clearMark key).recDests = c.recDests := rfl
@[simp] theorem Ctx.clearMark_parity (c : Ctx) (key : Nat) : (c.clearMark key).parity = c.parity := rfl
@[simp] theorem Ctx.clearMark_busy (c : Ctx) (key : Nat) : (c.clearMark key).busy = c.busy := rfl
@[simp] theorem Ctx.clearMark_pend (c : Ctx) (key : Nat) : (c.clearMark key).pend = c.pend := rfl
@[simp] theorem Ctx.clearMark_ending (c : Ctx) (key : Nat) : (c.clearMark key).ending = c.ending := rfl
@[simp] theorem Ctx.clearMark_preempt (c : Ctx) (key : Nat) : (c.clearMark key).preempt = c.preempt := rfl
@[simp] theorem Ctx.clearMark_avoid (c : Ctx) (key : Nat) : (c.clearMark key).avoid = c.avoid := rfl
@[simp] theorem Ctx.clearMark_yielding (c : Ctx) (key : Nat) : (c.clearMark key).yielding = c.yielding := rfl
@[simp] theorem Ctx.clearMark_arrived (c : Ctx) (key : Nat) : (c.clearMark key).arrived = c.arrived := rfl
@[simp] theorem Ctx.clearMark_released (c : Ctx) (key : Nat) : (c.clearMark key).released = c.released := rfl
@[simp] theorem Ctx.clearMark_td (c : Ctx) (key : Nat) : (c.clearMark key).td = c.td := rfl
@[simp] theorem Ctx.clearMark_cpat (c : Ctx) (key : Nat) : (c.clearMark key).cpat = c.cpat := rfl
@[simp] theorem Ctx.clearMark_astat (c : Ctx) (key : Nat) : (c.clearMark key).astat = c.astat := rfl
@[simp] theorem Ctx.clearMark_drainSum (c : Ctx) (key : Nat) : (c.clearMark key).drainSum = c.drainSum := rfl
@[simp] theorem Ctx.clearMark_drainCnt (c : Ctx) (key : Nat) : (c.clearMark key).drainCnt = c.drainCnt := rfl
@[simp] theorem Ctx.clearMark_lastLen (c : Ctx) (key : Nat) : (c.clearMark key).lastLen = c.lastLen := rfl
@[simp] theorem Ctx.clearMark_lastPages (c : Ctx) (key : Nat) : (c.clearMark key).lastPages = c.lastPages := rfl
@[simp] theorem Ctx.clearMark_unit (c : Ctx) (key : Nat) : (c.clearMark key).unit = c.unit := rfl
@[simp] theorem Ctx.clearMark_taken (c : Ctx) (key : Nat) : (c.clearMark key).taken = c.taken := rfl
@[simp] theorem Ctx.clearMark_acts (c : Ctx) (key : Nat) : (c.clearMark key).acts = c.acts := rfl
@[simp] theorem Ctx.clearMark_seg (c : Ctx) (key : Nat) : (c.clearMark key).seg = c.seg := rfl
@[simp] theorem Ctx.clearMark_attached (c : Ctx) (key : Nat) : (c.clearMark key).attached = c.attached := rfl
@[simp] theorem Ctx.clearMark_stopped (c : Ctx) (key : Nat) : (c.clearMark key).stopped = c.stopped := rfl
@[simp] theorem Ctx.clearMark_owned (c : Ctx) (key : Nat) : (c.clearMark key).owned = c.owned := rfl
@[simp] theorem Ctx.clearMark_perfSteps (c : Ctx) (key : Nat) : (c.clearMark key).perfSteps = c.perfSteps := rfl
@[simp] theorem Ctx.clearMark_perfIssue (c : Ctx) (key : Nat) : (c.clearMark key).perfIssue = c.perfIssue := rfl
@[simp] theorem Ctx.clearMark_perfStall (c : Ctx) (key : Nat) : (c.clearMark key).perfStall = c.perfStall := rfl
@[simp] theorem Ctx.clearMark_perfEng (c : Ctx) (key : Nat) : (c.clearMark key).perfEng = c.perfEng := rfl
@[simp] theorem Ctx.clearMark_dropped (c : Ctx) (key : Nat) : (c.clearMark key).dropped = c.dropped := rfl
@[simp] theorem Ctx.updRegs_regs (c : Ctx) (f : Regs → Regs) : (c.updRegs f).regs = f c.regs := rfl
@[simp] theorem Ctx.setV_getV (c : Ctx) (i : Nat) (v : Row) : (c.setV i v).getV i = v := Tab.get_set_self ..
/-- s(i) after a write of s(j): s0 reads zero, and a write of it is discarded (R69). -/
theorem Regs.getS_setS (r : Regs) (i j : Nat) (w : Word) : (r.setS i w).getS j = if i = j ∧ i ≠ 0 then w else r.getS j := by
  by_cases hi : i = 0 <;> by_cases hj : j = 0 <;> by_cases h : i = j <;> simp_all [Regs.setS, Regs.getS, Tab.get_set]


end Sys2Proof.Machine
end

