-- ==== Sys2Proof/Laws/Memory.lean ====
section
/-! SUPPORT. Every operation that writes the memories keeps their canonical form (log entry 2). -/

namespace Sys2Proof.Machine

theorem State.memWf_reset : State.reset.MemWf := rfl

/-- A fold of updates that keep the form keeps it. -/
theorem State.memWf_foldl {α : Type} (f : State → α → State) (hf : ∀ s a, s.MemWf → (f s a).MemWf) :
    ∀ (l : List α) (s : State), s.MemWf → (l.foldl f s).MemWf
  | [], _, h => h
  | a :: l, s, h => memWf_foldl f hf l (f s a) (hf s a h)

/-- An update that leaves memory alone keeps the form. -/
theorem State.memWf_of_mem {s t : State} (e : t.mem = s.mem) (h : s.MemWf) : t.MemWf := by
  simpa only [State.MemWf, e] using h

theorem State.memWf_logPage (s : State) (page : Nat) (h : s.MemWf) : (s.logPage page).MemWf := by
  dsimp only [State.logPage]
  split
  · exact Mem.wf_write _ _ (by simpa only [State.MemWf] using h)
  · exact h

theorem State.memWf_poke (s : State) (bs : List (Nat × Byte)) (h : s.MemWf) : (s.poke bs).MemWf :=
  State.memWf_foldl _ State.memWf_logPage _ _ (show Mem.wf (bs.foldl (fun m e => Mem.write m e.1 e.2) s.mem) = true from Mem.wf_foldl bs h)

/-- A fold of updates that leave memory alone leaves it alone. -/
theorem State.mem_foldl {α : Type} (f : State → α → State) (hf : ∀ s a, (f s a).mem = s.mem) :
    ∀ (l : List α) (s : State), (l.foldl f s).mem = s.mem
  | [], _ => rfl
  | a :: l, s => (mem_foldl f hf l (f s a)).trans (hf s a)

theorem State.writeBack_mem (s : State) (sh line : Nat) : (s.writeBack sh line).mem = s.mem := by
  unfold State.writeBack
  dsimp only
  split <;> simp [State.tick]

theorem State.dirtyLine_mem (s : State) (sh line tag : Nat) : (s.dirtyLine sh line tag).mem = s.mem := by
  unfold State.dirtyLine
  split
  · rfl
  · dsimp only
    split
    · simp
    · split
      · simp
      · exact (State.mem_foldl _ (fun s _ => s.writeBack_mem sh line) _ _).trans (by simp)

theorem State.memWf_returned (s : State) (sh line g : Nat) (bs : List (Nat × OByte)) (h : s.MemWf) : (s.returned sh line g bs).MemWf := by
  unfold State.returned
  dsimp only
  split
  · exact h
  · exact State.memWf_foldl _ (fun s tag h => State.memWf_of_mem (s.dirtyLine_mem sh line tag) h) _ _
      (State.memWf_of_mem (State.updCore_mem _ _ _) (s.memWf_poke _ h))

theorem State.answerForwarded_mem (s : State) (r : Req) : (s.answerForwarded r).mem = s.mem := by
  unfold State.answerForwarded
  dsimp only
  split <;> simp [State.answer, State.patchCopies, State.dropReq]

theorem State.memWf_flushReads (s : State) (line : Nat) (m : BitVec 32) (h : s.MemWf) : (s.flushReads line m).MemWf :=
  State.memWf_of_mem (State.mem_foldl _ State.answerForwarded_mem _ _) h

theorem State.memWf_flushTo (s : State) (sh k : Nat) (h : s.MemWf) : (s.flushTo sh k).MemWf :=
  State.memWf_of_mem (State.mem_foldl _ State.answerForwarded_mem _ _) h

theorem State.memWf_revoke (s : State) (sh line : Nat) (m : BitVec 32) (x : Option Nat) (h : s.MemWf) : (s.revoke sh line m x).MemWf := by
  refine State.memWf_of_mem (State.updShroud_mem _ _ _) (State.memWf_foldl _ (fun s e h => ?_) _ _ (s.memWf_flushReads line m h))
  split
  · exact h
  · exact State.memWf_of_mem (State.updCtx_mem _ _ _) (State.memWf_returned _ _ _ _ _ (s.memWf_flushTo _ _ h))

theorem State.memWf_invalidate (s : State) (p sh line : Nat) (keep : Option Nat) (h : s.MemWf) : (s.invalidate p sh line keep).MemWf := by
  unfold State.invalidate
  dsimp only
  refine State.memWf_foldl _ (fun s k h => ?_) _ _ h
  generalize ((_ : BitVec 32).getLsbD k && some k != keep) = b
  cases b
  · exact h
  · simp only [if_true]
    split
    · exact State.memWf_of_mem (State.updCore_mem _ _ _) (s.memWf_flushTo sh k h)
    · exact State.memWf_of_mem (State.updShroud_mem _ _ _) h

/-- The one event of a write at a line's home keeps the form where what it performs does. -/
theorem State.memWf_lineEvent (s : State) (w : Writer) (line : Nat) (m : BitVec 32) (put : State → State)
    (hput : ∀ t : State, t.MemWf → (put t).MemWf) (h : s.MemWf) : (s.lineEvent w line m put).MemWf := by
  have e : ((s.revoke (s.homeShroud w.p (line * 128)) line m none).invalidate (s.ownerPart w.p (line * 128))
      (s.homeShroud w.p (line * 128)) line w.keep).MemWf := State.memWf_invalidate _ _ _ _ _ (State.memWf_revoke _ _ _ _ _ h)
  have key : ∀ u : State, u.MemWf → (if u.isBad (s.homeShroud w.p (line * 128)) line then u
      else (put u).dirtyLine (s.homeShroud w.p (line * 128)) line w.tag).MemWf := by
    intro u hu
    split
    · exact hu
    · exact State.memWf_of_mem (State.dirtyLine_mem _ _ _ _) (hput u hu)
  unfold State.lineEvent
  dsimp only
  split
  · exact State.memWf_of_mem (State.updShroud_mem _ _ _) (key _ e)
  · split
    · exact State.memWf_of_mem (State.updShroud_mem _ _ _) (key _ e)
    · exact State.memWf_of_mem (State.updPart_mem _ _ _) (State.memWf_of_mem (State.updShroud_mem _ _ _) (key _ e))

theorem State.memWf_lineWrite (s : State) (w : Writer) (line : Nat) (bs : List (Nat × Byte)) (h : s.MemWf) : (s.lineWrite w line bs).MemWf :=
  s.memWf_lineEvent w line _ _ (fun t ht => t.memWf_poke bs ht) h

theorem State.memWf_lineZero (s : State) (w : Writer) (line : Nat) (h : s.MemWf) : (s.lineZero w line).MemWf :=
  s.memWf_lineEvent w line _ _ (fun t ht => State.memWf_logPage _ _
    (show Mem.wf (Tab.keep (fun a _ => a / 128 != line) t.mem) = true from Mem.wf_keep _ ht)) h

theorem State.memWf_homeWrite (s : State) (w : Writer) (bs : List (Nat × Byte)) (h : s.MemWf) : (s.homeWrite w bs).MemWf :=
  State.memWf_foldl _ (fun s line h => s.memWf_lineWrite w line _ h) _ _ h

theorem State.memWf_zeroVa (s : State) (w : Writer) (va : Word) (chunks : Nat) (h : s.MemWf) : (s.zeroVa w va chunks).MemWf := by
  refine State.memWf_foldl _ (fun s i h => ?_) _ _ h
  split
  · exact State.memWf_lineZero _ _ _ (State.memWf_lineZero _ _ _ h)
  · exact h

theorem State.memWf_restart (s : State) (h : s.MemWf) : s.restart.MemWf :=
  show Mem.wf (Tab.keep (fun a _ => !decide (a < hbmTop)) s.mem) = true from Mem.wf_keep _ h

theorem State.memWf_place0 (s : State) (nbits w : Nat) (h : s.MemWf) : (s.place0 nbits w).MemWf := by
  have e : (s.place0 nbits w).mem = Mem.writeN s.mem 0 32 (w % 2 ^ nbits) := by
    simp only [State.place0, State.updCore_mem, State.setCtx_mem, State.updPart_mem, State.updShroud_mem]
  rw [State.MemWf, e]
  exact Mem.wf_writeN 0 32 _ h

theorem State.memWf_zeroise (s : State) (p : Nat) (h : s.MemWf) : (s.zeroise p).MemWf := by
  refine State.memWf_of_mem (State.updPart_mem _ _ _) (State.memWf_foldl _ (fun s j h => ?_) _ _
    (show Mem.wf (Tab.keep (fun a _ => !(decide (a < hbmTop) && (s.setOf p).contains (a / 2 ^ 36))) s.mem) = true from Mem.wf_keep _ h))
  refine State.memWf_of_mem (State.updShroud_mem _ _ _) (State.memWf_foldl _ (fun s c h => ?_) _ _
    (State.memWf_foldl _ (fun s c h => ?_) _ _ h))
  · exact State.memWf_of_mem (State.setCtx_mem _ _ _) h
  · exact State.memWf_of_mem (State.updCore_mem _ _ _) h

end Sys2Proof.Machine
end

