-- ==== Sys2Proof/Laws/PerInstr.lean ====
section
/-! SUPPORT. One fact per instruction: what it encodes to lies in one slot's 32 bits (R8). -/

set_option Elab.async false

namespace Sys2Proof

theorem Cond.code_lt (c : Cond) : c.code < 16 := by cases c <;> decide
theorem VFmt.code_lt (f : VFmt) : f.code < 8 := by cases f <;> decide
theorem XFmt.code_lt (f : XFmt) : f.code < 16 := by cases f <;> decide
theorem Pol.code_lt (p : Pol) : p.code < 4 := by cases p <;> decide
theorem AtomFn.code_lt (f : AtomFn) : f.code < 16 := by cases f <;> decide
theorem CellOp.code_lt (o : CellOp) : o.code < 4 := by cases o <;> decide
theorem VSlot.slot_lt (v : VSlot) : v.slot < 8 := by cases v <;> decide

/-- A well-formed instruction's word, if it has one, fits in a slot of a bundle. -/
def Laws.FitsSlot.Statement (i : Instr) : Prop := ∀ slot w, encode i = some (slot, w) → slot < 8 ∧ w < 2 ^ 32

/-- A pair that fits, as a statement about the instruction it encodes. -/
theorem Laws.FitsSlot.of_eq {i : Instr} {k v : Nat} (e : encode i = some (k, v)) (hk : k < 8) (hv : v < 2 ^ 32) :
    Laws.FitsSlot.Statement i := by
  intro slot w h
  rw [e, Option.some.injEq, Prod.mk.injEq] at h
  exact h.1 ▸ h.2 ▸ ⟨hk, hv⟩

/-- An event of the part has no word. -/
theorem Laws.FitsSlot.of_none {i : Instr} (e : encode i = none) : Laws.FitsSlot.Statement i := by
  intro slot w h
  rw [e] at h
  exact nomatch h

theorem Laws.FitsSlot.bundle : ∀ a0, Laws.FitsSlot.Statement (.bundle a0) := fun _ => Laws.FitsSlot.of_none rfl
theorem Laws.FitsSlot.resultLands : ∀ a0, Laws.FitsSlot.Statement (.resultLands a0) := fun _ => Laws.FitsSlot.of_none rfl
theorem Laws.FitsSlot.globalLoadLands : ∀ a0, Laws.FitsSlot.Statement (.globalLoadLands a0) := fun _ => Laws.FitsSlot.of_none rfl
theorem Laws.FitsSlot.contextSwitch : ∀ a0, Laws.FitsSlot.Statement (.contextSwitch a0) := fun _ => Laws.FitsSlot.of_none rfl
theorem Laws.FitsSlot.bra : ∀ off, Laws.FitsSlot.Statement (.bra off) :=
  fun off => Laws.FitsSlot.of_eq rfl (by decide) (by have := off.isLt; omega)
theorem Laws.FitsSlot.brc : ∀ p off, Laws.FitsSlot.Statement (.brc p off) :=
  fun p off => Laws.FitsSlot.of_eq rfl (by decide) (by have := p.isLt; have := off.isLt; omega)
theorem Laws.FitsSlot.brm : ∀ t0 t1 t2 t3 bt, Laws.FitsSlot.Statement (.brm t0 t1 t2 t3 bt) :=
  fun t0 t1 t2 t3 bt => Laws.FitsSlot.of_eq rfl (by decide) (by have := t0.isLt; have := t1.isLt; have := t2.isLt; have := t3.isLt; have := bt.isLt; omega)
theorem Laws.FitsSlot.brr : ∀ bt, Laws.FitsSlot.Statement (.brr bt) :=
  fun bt => Laws.FitsSlot.of_eq rfl (by decide) (by have := bt.isLt; omega)
theorem Laws.FitsSlot.call : ∀ off, Laws.FitsSlot.Statement (.call off) :=
  fun off => Laws.FitsSlot.of_eq rfl (by decide) (by have := off.isLt; omega)
theorem Laws.FitsSlot.callr : ∀ bt, Laws.FitsSlot.Statement (.callr bt) :=
  fun bt => Laws.FitsSlot.of_eq rfl (by decide) (by have := bt.isLt; omega)
theorem Laws.FitsSlot.ret : Laws.FitsSlot.Statement (.ret) :=
  Laws.FitsSlot.of_eq rfl (by decide) (by omega)
theorem Laws.FitsSlot.loop : ∀ cnt len, Laws.FitsSlot.Statement (.loop cnt len) :=
  fun cnt len => Laws.FitsSlot.of_eq rfl (by decide) (by have := cnt.isLt; have := len.isLt; omega)
theorem Laws.FitsSlot.waitCtrGe : ∀ scope sa sb, Laws.FitsSlot.Statement (.waitCtrGe scope sa sb) :=
  fun scope sa sb => Laws.FitsSlot.of_eq rfl (by decide) (by have := scope.isLt; have := sa.isLt; have := sb.isLt; omega)
theorem Laws.FitsSlot.waitWpGe : ∀ scope sa sb, Laws.FitsSlot.Statement (.waitWpGe scope sa sb) :=
  fun scope sa sb => Laws.FitsSlot.of_eq rfl (by decide) (by have := scope.isLt; have := sa.isLt; have := sb.isLt; omega)
theorem Laws.FitsSlot.waitCoDone : ∀ scope sa, Laws.FitsSlot.Statement (.waitCoDone scope sa) :=
  fun scope sa => Laws.FitsSlot.of_eq rfl (by decide) (by have := scope.isLt; have := sa.isLt; omega)
theorem Laws.FitsSlot.waitBanks : ∀ sa, Laws.FitsSlot.Statement (.waitBanks sa) :=
  fun sa => Laws.FitsSlot.of_eq rfl (by decide) (by have := sa.isLt; omega)
theorem Laws.FitsSlot.waitTiles : ∀ sa, Laws.FitsSlot.Statement (.waitTiles sa) :=
  fun sa => Laws.FitsSlot.of_eq rfl (by decide) (by have := sa.isLt; omega)
theorem Laws.FitsSlot.waitQne : ∀ sa, Laws.FitsSlot.Statement (.waitQne sa) :=
  fun sa => Laws.FitsSlot.of_eq rfl (by decide) (by have := sa.isLt; omega)
theorem Laws.FitsSlot.waitTime : ∀ sa, Laws.FitsSlot.Statement (.waitTime sa) :=
  fun sa => Laws.FitsSlot.of_eq rfl (by decide) (by have := sa.isLt; omega)
theorem Laws.FitsSlot.yield : Laws.FitsSlot.Statement (.yield) :=
  Laws.FitsSlot.of_eq rfl (by decide) (by omega)
theorem Laws.FitsSlot.done : Laws.FitsSlot.Statement (.done) :=
  Laws.FitsSlot.of_eq rfl (by decide) (by omega)
theorem Laws.FitsSlot.trap : ∀ code, Laws.FitsSlot.Statement (.trap code) :=
  fun code => Laws.FitsSlot.of_eq rfl (by decide) (by have := code.isLt; omega)
theorem Laws.FitsSlot.eret : Laws.FitsSlot.Statement (.eret) :=
  Laws.FitsSlot.of_eq rfl (by decide) (by omega)
theorem Laws.FitsSlot.segb : ∀ idx, Laws.FitsSlot.Statement (.segb idx) :=
  fun idx => Laws.FitsSlot.of_eq rfl (by decide) (by have := idx.isLt; omega)
theorem Laws.FitsSlot.sege : Laws.FitsSlot.Statement (.sege) :=
  Laws.FitsSlot.of_eq rfl (by decide) (by omega)
theorem Laws.FitsSlot.rdv : ∀ id, Laws.FitsSlot.Statement (.rdv id) :=
  fun id => Laws.FitsSlot.of_eq rfl (by decide) (by have := id.isLt; omega)
theorem Laws.FitsSlot.bkpt : ∀ code, Laws.FitsSlot.Statement (.bkpt code) :=
  fun code => Laws.FitsSlot.of_eq rfl (by decide) (by have := code.isLt; omega)
theorem Laws.FitsSlot.phase : ∀ scope, Laws.FitsSlot.Statement (.phase scope) :=
  fun scope => Laws.FitsSlot.of_eq rfl (by decide) (by have := scope.isLt; omega)
theorem Laws.FitsSlot.add : ∀ d a b, Laws.FitsSlot.Statement (.add d a b) :=
  fun d a b => Laws.FitsSlot.of_eq rfl (by decide) (by have := d.isLt; have := a.isLt; have := b.isLt; omega)
theorem Laws.FitsSlot.sub : ∀ d a b, Laws.FitsSlot.Statement (.sub d a b) :=
  fun d a b => Laws.FitsSlot.of_eq rfl (by decide) (by have := d.isLt; have := a.isLt; have := b.isLt; omega)
theorem Laws.FitsSlot.mul : ∀ d a b, Laws.FitsSlot.Statement (.mul d a b) :=
  fun d a b => Laws.FitsSlot.of_eq rfl (by decide) (by have := d.isLt; have := a.isLt; have := b.isLt; omega)
theorem Laws.FitsSlot.mulh : ∀ d a b, Laws.FitsSlot.Statement (.mulh d a b) :=
  fun d a b => Laws.FitsSlot.of_eq rfl (by decide) (by have := d.isLt; have := a.isLt; have := b.isLt; omega)
theorem Laws.FitsSlot.mulhn : ∀ d a b, Laws.FitsSlot.Statement (.mulhn d a b) :=
  fun d a b => Laws.FitsSlot.of_eq rfl (by decide) (by have := d.isLt; have := a.isLt; have := b.isLt; omega)
theorem Laws.FitsSlot.div : ∀ d a b, Laws.FitsSlot.Statement (.div d a b) :=
  fun d a b => Laws.FitsSlot.of_eq rfl (by decide) (by have := d.isLt; have := a.isLt; have := b.isLt; omega)
theorem Laws.FitsSlot.divn : ∀ d a b, Laws.FitsSlot.Statement (.divn d a b) :=
  fun d a b => Laws.FitsSlot.of_eq rfl (by decide) (by have := d.isLt; have := a.isLt; have := b.isLt; omega)
theorem Laws.FitsSlot.rem : ∀ d a b, Laws.FitsSlot.Statement (.rem d a b) :=
  fun d a b => Laws.FitsSlot.of_eq rfl (by decide) (by have := d.isLt; have := a.isLt; have := b.isLt; omega)
theorem Laws.FitsSlot.remn : ∀ d a b, Laws.FitsSlot.Statement (.remn d a b) :=
  fun d a b => Laws.FitsSlot.of_eq rfl (by decide) (by have := d.isLt; have := a.isLt; have := b.isLt; omega)
theorem Laws.FitsSlot.and : ∀ d a b, Laws.FitsSlot.Statement (.and d a b) :=
  fun d a b => Laws.FitsSlot.of_eq rfl (by decide) (by have := d.isLt; have := a.isLt; have := b.isLt; omega)
theorem Laws.FitsSlot.or : ∀ d a b, Laws.FitsSlot.Statement (.or d a b) :=
  fun d a b => Laws.FitsSlot.of_eq rfl (by decide) (by have := d.isLt; have := a.isLt; have := b.isLt; omega)
theorem Laws.FitsSlot.xor : ∀ d a b, Laws.FitsSlot.Statement (.xor d a b) :=
  fun d a b => Laws.FitsSlot.of_eq rfl (by decide) (by have := d.isLt; have := a.isLt; have := b.isLt; omega)
theorem Laws.FitsSlot.andn : ∀ d a b, Laws.FitsSlot.Statement (.andn d a b) :=
  fun d a b => Laws.FitsSlot.of_eq rfl (by decide) (by have := d.isLt; have := a.isLt; have := b.isLt; omega)
theorem Laws.FitsSlot.shl : ∀ d a b, Laws.FitsSlot.Statement (.shl d a b) :=
  fun d a b => Laws.FitsSlot.of_eq rfl (by decide) (by have := d.isLt; have := a.isLt; have := b.isLt; omega)
theorem Laws.FitsSlot.shr : ∀ d a b, Laws.FitsSlot.Statement (.shr d a b) :=
  fun d a b => Laws.FitsSlot.of_eq rfl (by decide) (by have := d.isLt; have := a.isLt; have := b.isLt; omega)
theorem Laws.FitsSlot.sra : ∀ d a b, Laws.FitsSlot.Statement (.sra d a b) :=
  fun d a b => Laws.FitsSlot.of_eq rfl (by decide) (by have := d.isLt; have := a.isLt; have := b.isLt; omega)
theorem Laws.FitsSlot.min : ∀ d a b, Laws.FitsSlot.Statement (.min d a b) :=
  fun d a b => Laws.FitsSlot.of_eq rfl (by decide) (by have := d.isLt; have := a.isLt; have := b.isLt; omega)
theorem Laws.FitsSlot.max : ∀ d a b, Laws.FitsSlot.Statement (.max d a b) :=
  fun d a b => Laws.FitsSlot.of_eq rfl (by decide) (by have := d.isLt; have := a.isLt; have := b.isLt; omega)
theorem Laws.FitsSlot.minn : ∀ d a b, Laws.FitsSlot.Statement (.minn d a b) :=
  fun d a b => Laws.FitsSlot.of_eq rfl (by decide) (by have := d.isLt; have := a.isLt; have := b.isLt; omega)
theorem Laws.FitsSlot.maxn : ∀ d a b, Laws.FitsSlot.Statement (.maxn d a b) :=
  fun d a b => Laws.FitsSlot.of_eq rfl (by decide) (by have := d.isLt; have := a.isLt; have := b.isLt; omega)
theorem Laws.FitsSlot.clz : ∀ d a, Laws.FitsSlot.Statement (.clz d a) :=
  fun d a => Laws.FitsSlot.of_eq rfl (by decide) (by have := d.isLt; have := a.isLt; omega)
theorem Laws.FitsSlot.popc : ∀ d a, Laws.FitsSlot.Statement (.popc d a) :=
  fun d a => Laws.FitsSlot.of_eq rfl (by decide) (by have := d.isLt; have := a.isLt; omega)
theorem Laws.FitsSlot.sel : ∀ d a b k, Laws.FitsSlot.Statement (.sel d a b k) :=
  fun d a b k => Laws.FitsSlot.of_eq rfl (by decide) (by have := d.isLt; have := a.isLt; have := b.isLt; have := k.isLt; omega)
theorem Laws.FitsSlot.addi : ∀ d a imm, Laws.FitsSlot.Statement (.addi d a imm) :=
  fun d a imm => Laws.FitsSlot.of_eq rfl (by decide) (by have := d.isLt; have := a.isLt; have := imm.isLt; omega)
theorem Laws.FitsSlot.andi : ∀ d a imm, Laws.FitsSlot.Statement (.andi d a imm) :=
  fun d a imm => Laws.FitsSlot.of_eq rfl (by decide) (by have := d.isLt; have := a.isLt; have := imm.isLt; omega)
theorem Laws.FitsSlot.ori : ∀ d a imm, Laws.FitsSlot.Statement (.ori d a imm) :=
  fun d a imm => Laws.FitsSlot.of_eq rfl (by decide) (by have := d.isLt; have := a.isLt; have := imm.isLt; omega)
theorem Laws.FitsSlot.xori : ∀ d a imm, Laws.FitsSlot.Statement (.xori d a imm) :=
  fun d a imm => Laws.FitsSlot.of_eq rfl (by decide) (by have := d.isLt; have := a.isLt; have := imm.isLt; omega)
theorem Laws.FitsSlot.shli : ∀ d a n, Laws.FitsSlot.Statement (.shli d a n) :=
  fun d a n => Laws.FitsSlot.of_eq rfl (by decide) (by have := d.isLt; have := a.isLt; have := n.isLt; omega)
theorem Laws.FitsSlot.shri : ∀ d a n, Laws.FitsSlot.Statement (.shri d a n) :=
  fun d a n => Laws.FitsSlot.of_eq rfl (by decide) (by have := d.isLt; have := a.isLt; have := n.isLt; omega)
theorem Laws.FitsSlot.srai : ∀ d a n, Laws.FitsSlot.Statement (.srai d a n) :=
  fun d a n => Laws.FitsSlot.of_eq rfl (by decide) (by have := d.isLt; have := a.isLt; have := n.isLt; omega)
theorem Laws.FitsSlot.li : ∀ d imm, Laws.FitsSlot.Statement (.li d imm) :=
  fun d imm => Laws.FitsSlot.of_eq rfl (by decide) (by have := d.isLt; have := imm.isLt; omega)
theorem Laws.FitsSlot.lis : ∀ d imm, Laws.FitsSlot.Statement (.lis d imm) :=
  fun d imm => Laws.FitsSlot.of_eq rfl (by decide) (by have := d.isLt; have := imm.isLt; omega)
theorem Laws.FitsSlot.adds : ∀ d a b k, Laws.FitsSlot.Statement (.adds d a b k) :=
  fun d a b k => Laws.FitsSlot.of_eq rfl (by decide) (by have := d.isLt; have := a.isLt; have := b.isLt; have := k.isLt; omega)
theorem Laws.FitsSlot.cmp : ∀ pair cond a b, Laws.FitsSlot.Statement (.cmp pair cond a b) :=
  fun pair cond a b => Laws.FitsSlot.of_eq rfl (by decide) (by have := pair.isLt; have := cond.code_lt; have := a.isLt; have := b.isLt; omega)
theorem Laws.FitsSlot.cmpi : ∀ pair cond a imm, Laws.FitsSlot.Statement (.cmpi pair cond a imm) :=
  fun pair cond a imm => Laws.FitsSlot.of_eq rfl (by decide) (by have := pair.isLt; have := cond.code_lt; have := a.isLt; have := imm.isLt; omega)
theorem Laws.FitsSlot.pand : ∀ pair pa pb, Laws.FitsSlot.Statement (.pand pair pa pb) :=
  fun pair pa pb => Laws.FitsSlot.of_eq rfl (by decide) (by have := pair.isLt; have := pa.isLt; have := pb.isLt; omega)
theorem Laws.FitsSlot.por : ∀ pair pa pb, Laws.FitsSlot.Statement (.por pair pa pb) :=
  fun pair pa pb => Laws.FitsSlot.of_eq rfl (by decide) (by have := pair.isLt; have := pa.isLt; have := pb.isLt; omega)
theorem Laws.FitsSlot.pxor : ∀ pair pa pb, Laws.FitsSlot.Statement (.pxor pair pa pb) :=
  fun pair pa pb => Laws.FitsSlot.of_eq rfl (by decide) (by have := pair.isLt; have := pa.isLt; have := pb.isLt; omega)
theorem Laws.FitsSlot.setx : ∀ x a imm, Laws.FitsSlot.Statement (.setx x a imm) :=
  fun x a imm => Laws.FitsSlot.of_eq rfl (by decide) (by have := x.isLt; have := a.isLt; have := imm.isLt; omega)
theorem Laws.FitsSlot.movbt : ∀ bt a, Laws.FitsSlot.Statement (.movbt bt a) :=
  fun bt a => Laws.FitsSlot.of_eq rfl (by decide) (by have := bt.isLt; have := a.isLt; omega)
theorem Laws.FitsSlot.mfbt : ∀ d bt, Laws.FitsSlot.Statement (.mfbt d bt) :=
  fun d bt => Laws.FitsSlot.of_eq rfl (by decide) (by have := d.isLt; have := bt.isLt; omega)
theorem Laws.FitsSlot.mfc : ∀ d cr, Laws.FitsSlot.Statement (.mfc d cr) :=
  fun d cr => Laws.FitsSlot.of_eq rfl (by decide) (by have := d.isLt; have := cr.isLt; omega)
theorem Laws.FitsSlot.mtc : ∀ cr a, Laws.FitsSlot.Statement (.mtc cr a) :=
  fun cr a => Laws.FitsSlot.of_eq rfl (by decide) (by have := cr.isLt; have := a.isLt; omega)
theorem Laws.FitsSlot.fadd : ∀ d a b, Laws.FitsSlot.Statement (.fadd d a b) :=
  fun d a b => Laws.FitsSlot.of_eq rfl (by decide) (by have := d.isLt; have := a.isLt; have := b.isLt; omega)
theorem Laws.FitsSlot.fsub : ∀ d a b, Laws.FitsSlot.Statement (.fsub d a b) :=
  fun d a b => Laws.FitsSlot.of_eq rfl (by decide) (by have := d.isLt; have := a.isLt; have := b.isLt; omega)
theorem Laws.FitsSlot.fmul : ∀ d a b, Laws.FitsSlot.Statement (.fmul d a b) :=
  fun d a b => Laws.FitsSlot.of_eq rfl (by decide) (by have := d.isLt; have := a.isLt; have := b.isLt; omega)
theorem Laws.FitsSlot.ffma : ∀ d a b, Laws.FitsSlot.Statement (.ffma d a b) :=
  fun d a b => Laws.FitsSlot.of_eq rfl (by decide) (by have := d.isLt; have := a.isLt; have := b.isLt; omega)
theorem Laws.FitsSlot.fmin : ∀ d a b, Laws.FitsSlot.Statement (.fmin d a b) :=
  fun d a b => Laws.FitsSlot.of_eq rfl (by decide) (by have := d.isLt; have := a.isLt; have := b.isLt; omega)
theorem Laws.FitsSlot.fmax : ∀ d a b, Laws.FitsSlot.Statement (.fmax d a b) :=
  fun d a b => Laws.FitsSlot.of_eq rfl (by decide) (by have := d.isLt; have := a.isLt; have := b.isLt; omega)
theorem Laws.FitsSlot.fcmp : ∀ pair cond a b, Laws.FitsSlot.Statement (.fcmp pair cond a b) :=
  fun pair cond a b => Laws.FitsSlot.of_eq rfl (by decide) (by have := pair.isLt; have := cond.code_lt; have := a.isLt; have := b.isLt; omega)
theorem Laws.FitsSlot.fcvti : ∀ n64 d a, Laws.FitsSlot.Statement (.fcvti n64 d a) :=
  fun n64 d a => Laws.FitsSlot.of_eq rfl (by decide) (by have := Bool.toNat_lt n64; have := d.isLt; have := a.isLt; omega)
theorem Laws.FitsSlot.icvtf : ∀ n64 d a, Laws.FitsSlot.Statement (.icvtf n64 d a) :=
  fun n64 d a => Laws.FitsSlot.of_eq rfl (by decide) (by have := Bool.toNat_lt n64; have := d.isLt; have := a.isLt; omega)
theorem Laws.FitsSlot.vadd : ∀ vs fmt nwb d a b, Laws.FitsSlot.Statement (.vadd vs fmt nwb d a b) :=
  fun vs fmt nwb d a b => Laws.FitsSlot.of_eq rfl (VSlot.slot_lt _) (by have := fmt.code_lt; have := Bool.toNat_lt nwb; have := d.isLt; have := a.isLt; have := b.isLt; omega)
theorem Laws.FitsSlot.vsub : ∀ vs fmt nwb d a b, Laws.FitsSlot.Statement (.vsub vs fmt nwb d a b) :=
  fun vs fmt nwb d a b => Laws.FitsSlot.of_eq rfl (VSlot.slot_lt _) (by have := fmt.code_lt; have := Bool.toNat_lt nwb; have := d.isLt; have := a.isLt; have := b.isLt; omega)
theorem Laws.FitsSlot.vmul : ∀ vs fmt nwb d a b, Laws.FitsSlot.Statement (.vmul vs fmt nwb d a b) :=
  fun vs fmt nwb d a b => Laws.FitsSlot.of_eq rfl (VSlot.slot_lt _) (by have := fmt.code_lt; have := Bool.toNat_lt nwb; have := d.isLt; have := a.isLt; have := b.isLt; omega)
theorem Laws.FitsSlot.vfma : ∀ vs fmt nwb d a b, Laws.FitsSlot.Statement (.vfma vs fmt nwb d a b) :=
  fun vs fmt nwb d a b => Laws.FitsSlot.of_eq rfl (VSlot.slot_lt _) (by have := fmt.code_lt; have := Bool.toNat_lt nwb; have := d.isLt; have := a.isLt; have := b.isLt; omega)
theorem Laws.FitsSlot.vfms : ∀ vs fmt nwb d a b, Laws.FitsSlot.Statement (.vfms vs fmt nwb d a b) :=
  fun vs fmt nwb d a b => Laws.FitsSlot.of_eq rfl (VSlot.slot_lt _) (by have := fmt.code_lt; have := Bool.toNat_lt nwb; have := d.isLt; have := a.isLt; have := b.isLt; omega)
theorem Laws.FitsSlot.vmin : ∀ vs fmt nwb d a b, Laws.FitsSlot.Statement (.vmin vs fmt nwb d a b) :=
  fun vs fmt nwb d a b => Laws.FitsSlot.of_eq rfl (VSlot.slot_lt _) (by have := fmt.code_lt; have := Bool.toNat_lt nwb; have := d.isLt; have := a.isLt; have := b.isLt; omega)
theorem Laws.FitsSlot.vmax : ∀ vs fmt nwb d a b, Laws.FitsSlot.Statement (.vmax vs fmt nwb d a b) :=
  fun vs fmt nwb d a b => Laws.FitsSlot.of_eq rfl (VSlot.slot_lt _) (by have := fmt.code_lt; have := Bool.toNat_lt nwb; have := d.isLt; have := a.isLt; have := b.isLt; omega)
theorem Laws.FitsSlot.vabs : ∀ vs fmt nwb d a, Laws.FitsSlot.Statement (.vabs vs fmt nwb d a) :=
  fun vs fmt nwb d a => Laws.FitsSlot.of_eq rfl (VSlot.slot_lt _) (by have := fmt.code_lt; have := Bool.toNat_lt nwb; have := d.isLt; have := a.isLt; omega)
theorem Laws.FitsSlot.vneg : ∀ vs fmt nwb d a, Laws.FitsSlot.Statement (.vneg vs fmt nwb d a) :=
  fun vs fmt nwb d a => Laws.FitsSlot.of_eq rfl (VSlot.slot_lt _) (by have := fmt.code_lt; have := Bool.toNat_lt nwb; have := d.isLt; have := a.isLt; omega)
theorem Laws.FitsSlot.vabd : ∀ vs fmt nwb d a b, Laws.FitsSlot.Statement (.vabd vs fmt nwb d a b) :=
  fun vs fmt nwb d a b => Laws.FitsSlot.of_eq rfl (VSlot.slot_lt _) (by have := fmt.code_lt; have := Bool.toNat_lt nwb; have := d.isLt; have := a.isLt; have := b.isLt; omega)
theorem Laws.FitsSlot.vand : ∀ vs fmt nwb d a b, Laws.FitsSlot.Statement (.vand vs fmt nwb d a b) :=
  fun vs fmt nwb d a b => Laws.FitsSlot.of_eq rfl (VSlot.slot_lt _) (by have := fmt.code_lt; have := Bool.toNat_lt nwb; have := d.isLt; have := a.isLt; have := b.isLt; omega)
theorem Laws.FitsSlot.vor : ∀ vs fmt nwb d a b, Laws.FitsSlot.Statement (.vor vs fmt nwb d a b) :=
  fun vs fmt nwb d a b => Laws.FitsSlot.of_eq rfl (VSlot.slot_lt _) (by have := fmt.code_lt; have := Bool.toNat_lt nwb; have := d.isLt; have := a.isLt; have := b.isLt; omega)
theorem Laws.FitsSlot.vxor : ∀ vs fmt nwb d a b, Laws.FitsSlot.Statement (.vxor vs fmt nwb d a b) :=
  fun vs fmt nwb d a b => Laws.FitsSlot.of_eq rfl (VSlot.slot_lt _) (by have := fmt.code_lt; have := Bool.toNat_lt nwb; have := d.isLt; have := a.isLt; have := b.isLt; omega)
theorem Laws.FitsSlot.vshl : ∀ vs fmt nwb d a b, Laws.FitsSlot.Statement (.vshl vs fmt nwb d a b) :=
  fun vs fmt nwb d a b => Laws.FitsSlot.of_eq rfl (VSlot.slot_lt _) (by have := fmt.code_lt; have := Bool.toNat_lt nwb; have := d.isLt; have := a.isLt; have := b.isLt; omega)
theorem Laws.FitsSlot.vshr : ∀ vs fmt nwb d a b, Laws.FitsSlot.Statement (.vshr vs fmt nwb d a b) :=
  fun vs fmt nwb d a b => Laws.FitsSlot.of_eq rfl (VSlot.slot_lt _) (by have := fmt.code_lt; have := Bool.toNat_lt nwb; have := d.isLt; have := a.isLt; have := b.isLt; omega)
theorem Laws.FitsSlot.vsra : ∀ vs fmt nwb d a b, Laws.FitsSlot.Statement (.vsra vs fmt nwb d a b) :=
  fun vs fmt nwb d a b => Laws.FitsSlot.of_eq rfl (VSlot.slot_lt _) (by have := fmt.code_lt; have := Bool.toNat_lt nwb; have := d.isLt; have := a.isLt; have := b.isLt; omega)
theorem Laws.FitsSlot.vadds : ∀ vs fmt nwb d a b, Laws.FitsSlot.Statement (.vadds vs fmt nwb d a b) :=
  fun vs fmt nwb d a b => Laws.FitsSlot.of_eq rfl (VSlot.slot_lt _) (by have := fmt.code_lt; have := Bool.toNat_lt nwb; have := d.isLt; have := a.isLt; have := b.isLt; omega)
theorem Laws.FitsSlot.vsubs : ∀ vs fmt nwb d a b, Laws.FitsSlot.Statement (.vsubs vs fmt nwb d a b) :=
  fun vs fmt nwb d a b => Laws.FitsSlot.of_eq rfl (VSlot.slot_lt _) (by have := fmt.code_lt; have := Bool.toNat_lt nwb; have := d.isLt; have := a.isLt; have := b.isLt; omega)
theorem Laws.FitsSlot.vcmpeq : ∀ vs fmt nwb d a b, Laws.FitsSlot.Statement (.vcmpeq vs fmt nwb d a b) :=
  fun vs fmt nwb d a b => Laws.FitsSlot.of_eq rfl (VSlot.slot_lt _) (by have := fmt.code_lt; have := Bool.toNat_lt nwb; have := d.isLt; have := a.isLt; have := b.isLt; omega)
theorem Laws.FitsSlot.vcmplt : ∀ vs fmt nwb d a b, Laws.FitsSlot.Statement (.vcmplt vs fmt nwb d a b) :=
  fun vs fmt nwb d a b => Laws.FitsSlot.of_eq rfl (VSlot.slot_lt _) (by have := fmt.code_lt; have := Bool.toNat_lt nwb; have := d.isLt; have := a.isLt; have := b.isLt; omega)
theorem Laws.FitsSlot.vcmple : ∀ vs fmt nwb d a b, Laws.FitsSlot.Statement (.vcmple vs fmt nwb d a b) :=
  fun vs fmt nwb d a b => Laws.FitsSlot.of_eq rfl (VSlot.slot_lt _) (by have := fmt.code_lt; have := Bool.toNat_lt nwb; have := d.isLt; have := a.isLt; have := b.isLt; omega)
theorem Laws.FitsSlot.vsel : ∀ vs fmt nwb d a b, Laws.FitsSlot.Statement (.vsel vs fmt nwb d a b) :=
  fun vs fmt nwb d a b => Laws.FitsSlot.of_eq rfl (VSlot.slot_lt _) (by have := fmt.code_lt; have := Bool.toNat_lt nwb; have := d.isLt; have := a.isLt; have := b.isLt; omega)
theorem Laws.FitsSlot.vexp2 : ∀ vs fmt nwb d a, Laws.FitsSlot.Statement (.vexp2 vs fmt nwb d a) :=
  fun vs fmt nwb d a => Laws.FitsSlot.of_eq rfl (VSlot.slot_lt _) (by have := fmt.code_lt; have := Bool.toNat_lt nwb; have := d.isLt; have := a.isLt; omega)
theorem Laws.FitsSlot.vlog2 : ∀ vs fmt nwb d a, Laws.FitsSlot.Statement (.vlog2 vs fmt nwb d a) :=
  fun vs fmt nwb d a => Laws.FitsSlot.of_eq rfl (VSlot.slot_lt _) (by have := fmt.code_lt; have := Bool.toNat_lt nwb; have := d.isLt; have := a.isLt; omega)
theorem Laws.FitsSlot.vrcp : ∀ vs fmt nwb d a, Laws.FitsSlot.Statement (.vrcp vs fmt nwb d a) :=
  fun vs fmt nwb d a => Laws.FitsSlot.of_eq rfl (VSlot.slot_lt _) (by have := fmt.code_lt; have := Bool.toNat_lt nwb; have := d.isLt; have := a.isLt; omega)
theorem Laws.FitsSlot.vrsq : ∀ vs fmt nwb d a, Laws.FitsSlot.Statement (.vrsq vs fmt nwb d a) :=
  fun vs fmt nwb d a => Laws.FitsSlot.of_eq rfl (VSlot.slot_lt _) (by have := fmt.code_lt; have := Bool.toNat_lt nwb; have := d.isLt; have := a.isLt; omega)
theorem Laws.FitsSlot.vcvt : ∀ vs fmt nwb d a from_ inf, Laws.FitsSlot.Statement (.vcvt vs fmt nwb d a from_ inf) :=
  fun vs fmt nwb d a from_ inf => Laws.FitsSlot.of_eq rfl (VSlot.slot_lt _) (by have := fmt.code_lt; have := Bool.toNat_lt nwb; have := d.isLt; have := a.isLt; have := from_.code_lt; have := Bool.toNat_lt inf; omega)
theorem Laws.FitsSlot.vbcast : ∀ vs fmt nwb d a lane, Laws.FitsSlot.Statement (.vbcast vs fmt nwb d a lane) :=
  fun vs fmt nwb d a lane => Laws.FitsSlot.of_eq rfl (VSlot.slot_lt _) (by have := fmt.code_lt; have := Bool.toNat_lt nwb; have := d.isLt; have := a.isLt; have := lane.isLt; omega)
theorem Laws.FitsSlot.vbcs : ∀ vs fmt nwb d sa, Laws.FitsSlot.Statement (.vbcs vs fmt nwb d sa) :=
  fun vs fmt nwb d sa => Laws.FitsSlot.of_eq rfl (VSlot.slot_lt _) (by have := fmt.code_lt; have := Bool.toNat_lt nwb; have := d.isLt; have := sa.isLt; omega)
theorem Laws.FitsSlot.vperm : ∀ vs fmt nwb d a b, Laws.FitsSlot.Statement (.vperm vs fmt nwb d a b) :=
  fun vs fmt nwb d a b => Laws.FitsSlot.of_eq rfl (VSlot.slot_lt _) (by have := fmt.code_lt; have := Bool.toNat_lt nwb; have := d.isLt; have := a.isLt; have := b.isLt; omega)
theorem Laws.FitsSlot.vredadd : ∀ vs fmt nwb d a, Laws.FitsSlot.Statement (.vredadd vs fmt nwb d a) :=
  fun vs fmt nwb d a => Laws.FitsSlot.of_eq rfl (VSlot.slot_lt _) (by have := fmt.code_lt; have := Bool.toNat_lt nwb; have := d.isLt; have := a.isLt; omega)
theorem Laws.FitsSlot.vredmax : ∀ vs fmt nwb d a, Laws.FitsSlot.Statement (.vredmax vs fmt nwb d a) :=
  fun vs fmt nwb d a => Laws.FitsSlot.of_eq rfl (VSlot.slot_lt _) (by have := fmt.code_lt; have := Bool.toNat_lt nwb; have := d.isLt; have := a.isLt; omega)
theorem Laws.FitsSlot.vredmin : ∀ vs fmt nwb d a, Laws.FitsSlot.Statement (.vredmin vs fmt nwb d a) :=
  fun vs fmt nwb d a => Laws.FitsSlot.of_eq rfl (VSlot.slot_lt _) (by have := fmt.code_lt; have := Bool.toNat_lt nwb; have := d.isLt; have := a.isLt; omega)
theorem Laws.FitsSlot.vscan : ∀ vs fmt nwb d a, Laws.FitsSlot.Statement (.vscan vs fmt nwb d a) :=
  fun vs fmt nwb d a => Laws.FitsSlot.of_eq rfl (VSlot.slot_lt _) (by have := fmt.code_lt; have := Bool.toNat_lt nwb; have := d.isLt; have := a.isLt; omega)
theorem Laws.FitsSlot.vdot4 : ∀ vs fmt nwb d a b, Laws.FitsSlot.Statement (.vdot4 vs fmt nwb d a b) :=
  fun vs fmt nwb d a b => Laws.FitsSlot.of_eq rfl (VSlot.slot_lt _) (by have := fmt.code_lt; have := Bool.toNat_lt nwb; have := d.isLt; have := a.isLt; have := b.isLt; omega)
theorem Laws.FitsSlot.vmov : ∀ vs fmt nwb d a, Laws.FitsSlot.Statement (.vmov vs fmt nwb d a) :=
  fun vs fmt nwb d a => Laws.FitsSlot.of_eq rfl (VSlot.slot_lt _) (by have := fmt.code_lt; have := Bool.toNat_lt nwb; have := d.isLt; have := a.isLt; omega)
theorem Laws.FitsSlot.viota : ∀ vs fmt nwb d sa, Laws.FitsSlot.Statement (.viota vs fmt nwb d sa) :=
  fun vs fmt nwb d sa => Laws.FitsSlot.of_eq rfl (VSlot.slot_lt _) (by have := fmt.code_lt; have := Bool.toNat_lt nwb; have := d.isLt; have := sa.isLt; omega)
theorem Laws.FitsSlot.vmskp : ∀ vs fmt pair a, Laws.FitsSlot.Statement (.vmskp vs fmt pair a) :=
  fun vs fmt pair a => Laws.FitsSlot.of_eq rfl (VSlot.slot_lt _) (by have := fmt.code_lt; have := pair.isLt; have := a.isLt; omega)
theorem Laws.FitsSlot.vmskc : ∀ vs fmt sd a, Laws.FitsSlot.Statement (.vmskc vs fmt sd a) :=
  fun vs fmt sd a => Laws.FitsSlot.of_eq rfl (VSlot.slot_lt _) (by have := fmt.code_lt; have := sd.isLt; have := a.isLt; omega)
theorem Laws.FitsSlot.vshuf : ∀ vs fmt nwb d a pat, Laws.FitsSlot.Statement (.vshuf vs fmt nwb d a pat) :=
  fun vs fmt nwb d a pat => Laws.FitsSlot.of_eq rfl (VSlot.slot_lt _) (by have := fmt.code_lt; have := Bool.toNat_lt nwb; have := d.isLt; have := a.isLt; have := pat.isLt; omega)
theorem Laws.FitsSlot.vmovs : ∀ vs fmt sd a lane, Laws.FitsSlot.Statement (.vmovs vs fmt sd a lane) :=
  fun vs fmt sd a lane => Laws.FitsSlot.of_eq rfl (VSlot.slot_lt _) (by have := fmt.code_lt; have := sd.isLt; have := a.isLt; have := lane.isLt; omega)
theorem Laws.FitsSlot.vins : ∀ vs fmt nwb d sa lane, Laws.FitsSlot.Statement (.vins vs fmt nwb d sa lane) :=
  fun vs fmt nwb d sa lane => Laws.FitsSlot.of_eq rfl (VSlot.slot_lt _) (by have := fmt.code_lt; have := Bool.toNat_lt nwb; have := d.isLt; have := sa.isLt; have := lane.isLt; omega)
theorem Laws.FitsSlot.ldl : ∀ data base imm, Laws.FitsSlot.Statement (.ldl data base imm) :=
  fun data base imm => Laws.FitsSlot.of_eq rfl (by decide) (by have := data.isLt; have := base.isLt; have := imm.isLt; omega)
theorem Laws.FitsSlot.stl : ∀ data base imm, Laws.FitsSlot.Statement (.stl data base imm) :=
  fun data base imm => Laws.FitsSlot.of_eq rfl (by decide) (by have := data.isLt; have := base.isLt; have := imm.isLt; omega)
theorem Laws.FitsSlot.ldlp : ∀ data base imm, Laws.FitsSlot.Statement (.ldlp data base imm) :=
  fun data base imm => Laws.FitsSlot.of_eq rfl (by decide) (by have := data.isLt; have := base.isLt; have := imm.isLt; omega)
theorem Laws.FitsSlot.stlp : ∀ data base imm, Laws.FitsSlot.Statement (.stlp data base imm) :=
  fun data base imm => Laws.FitsSlot.of_eq rfl (by decide) (by have := data.isLt; have := base.isLt; have := imm.isLt; omega)
theorem Laws.FitsSlot.ldls : ∀ data base sz off, Laws.FitsSlot.Statement (.ldls data base sz off) :=
  fun data base sz off => Laws.FitsSlot.of_eq rfl (by decide) (by have := data.isLt; have := base.isLt; have := sz.isLt; have := off.isLt; omega)
theorem Laws.FitsSlot.stls : ∀ data base sz off, Laws.FitsSlot.Statement (.stls data base sz off) :=
  fun data base sz off => Laws.FitsSlot.of_eq rfl (by decide) (by have := data.isLt; have := base.isLt; have := sz.isLt; have := off.isLt; omega)
theorem Laws.FitsSlot.ldg : ∀ data base cp imm, Laws.FitsSlot.Statement (.ldg data base cp imm) :=
  fun data base cp imm => Laws.FitsSlot.of_eq rfl (by decide) (by have := data.isLt; have := base.isLt; have := cp.code_lt; have := imm.isLt; omega)
theorem Laws.FitsSlot.stg : ∀ data base cp imm, Laws.FitsSlot.Statement (.stg data base cp imm) :=
  fun data base cp imm => Laws.FitsSlot.of_eq rfl (by decide) (by have := data.isLt; have := base.isLt; have := cp.code_lt; have := imm.isLt; omega)
theorem Laws.FitsSlot.ldgp : ∀ data base cp imm, Laws.FitsSlot.Statement (.ldgp data base cp imm) :=
  fun data base cp imm => Laws.FitsSlot.of_eq rfl (by decide) (by have := data.isLt; have := base.isLt; have := cp.code_lt; have := imm.isLt; omega)
theorem Laws.FitsSlot.stgp : ∀ data base cp imm, Laws.FitsSlot.Statement (.stgp data base cp imm) :=
  fun data base cp imm => Laws.FitsSlot.of_eq rfl (by decide) (by have := data.isLt; have := base.isLt; have := cp.code_lt; have := imm.isLt; omega)
theorem Laws.FitsSlot.ldgs : ∀ data base cp sz off, Laws.FitsSlot.Statement (.ldgs data base cp sz off) :=
  fun data base cp sz off => Laws.FitsSlot.of_eq rfl (by decide) (by have := data.isLt; have := base.isLt; have := cp.code_lt; have := sz.isLt; have := off.isLt; omega)
theorem Laws.FitsSlot.stgs : ∀ data base cp sz off, Laws.FitsSlot.Statement (.stgs data base cp sz off) :=
  fun data base cp sz off => Laws.FitsSlot.of_eq rfl (by decide) (by have := data.isLt; have := base.isLt; have := cp.code_lt; have := sz.isLt; have := off.isLt; omega)
theorem Laws.FitsSlot.atom : ∀ f w64 cp data base, Laws.FitsSlot.Statement (.atom f w64 cp data base) :=
  fun f w64 cp data base => Laws.FitsSlot.of_eq rfl (by decide) (by have := f.code_lt; have := Bool.toNat_lt w64; have := cp.code_lt; have := data.isLt; have := base.isLt; omega)
theorem Laws.FitsSlot.atoml : ∀ f w64 data base, Laws.FitsSlot.Statement (.atoml f w64 data base) :=
  fun f w64 data base => Laws.FitsSlot.of_eq rfl (by decide) (by have := f.code_lt; have := Bool.toNat_lt w64; have := data.isLt; have := base.isLt; omega)
theorem Laws.FitsSlot.fenceAcq : ∀ scope, Laws.FitsSlot.Statement (.fenceAcq scope) :=
  fun scope => Laws.FitsSlot.of_eq rfl (by decide) (by have := scope.isLt; omega)
theorem Laws.FitsSlot.fenceRel : ∀ scope, Laws.FitsSlot.Statement (.fenceRel scope) :=
  fun scope => Laws.FitsSlot.of_eq rfl (by decide) (by have := scope.isLt; omega)
theorem Laws.FitsSlot.fenceAcqrel : ∀ scope, Laws.FitsSlot.Statement (.fenceAcqrel scope) :=
  fun scope => Laws.FitsSlot.of_eq rfl (by decide) (by have := scope.isLt; omega)
theorem Laws.FitsSlot.claimb : ∀ mask, Laws.FitsSlot.Statement (.claimb mask) :=
  fun mask => Laws.FitsSlot.of_eq rfl (by decide) (by have := mask.isLt; omega)
theorem Laws.FitsSlot.relb : ∀ mask, Laws.FitsSlot.Statement (.relb mask) :=
  fun mask => Laws.FitsSlot.of_eq rfl (by decide) (by have := mask.isLt; omega)
theorem Laws.FitsSlot.claimt : ∀ mask, Laws.FitsSlot.Statement (.claimt mask) :=
  fun mask => Laws.FitsSlot.of_eq rfl (by decide) (by have := mask.isLt; omega)
theorem Laws.FitsSlot.relt : ∀ mask, Laws.FitsSlot.Statement (.relt mask) :=
  fun mask => Laws.FitsSlot.of_eq rfl (by decide) (by have := mask.isLt; omega)
theorem Laws.FitsSlot.prfg : ∀ len base cp imm, Laws.FitsSlot.Statement (.prfg len base cp imm) :=
  fun len base cp imm => Laws.FitsSlot.of_eq rfl (by decide) (by have := len.isLt; have := base.isLt; have := cp.code_lt; have := imm.isLt; omega)
theorem Laws.FitsSlot.publ : ∀ len base imm, Laws.FitsSlot.Statement (.publ len base imm) :=
  fun len base imm => Laws.FitsSlot.of_eq rfl (by decide) (by have := len.isLt; have := base.isLt; have := imm.isLt; omega)
theorem Laws.FitsSlot.invl : ∀ len base imm, Laws.FitsSlot.Statement (.invl len base imm) :=
  fun len base imm => Laws.FitsSlot.of_eq rfl (by decide) (by have := len.isLt; have := base.isLt; have := imm.isLt; omega)
theorem Laws.FitsSlot.ldlx : ∀ data base imm, Laws.FitsSlot.Statement (.ldlx data base imm) :=
  fun data base imm => Laws.FitsSlot.of_eq rfl (by decide) (by have := data.isLt; have := base.isLt; have := imm.isLt; omega)
theorem Laws.FitsSlot.xcvt : ∀ tgt from_ stat inf d a, Laws.FitsSlot.Statement (.xcvt tgt from_ stat inf d a) :=
  fun tgt from_ stat inf d a => Laws.FitsSlot.of_eq rfl (by decide) (by have := tgt.code_lt; have := from_.code_lt; have := Bool.toNat_lt stat; have := Bool.toNat_lt inf; have := d.isLt; have := a.isLt; omega)
theorem Laws.FitsSlot.xqnt : ∀ tgt bf sc stat d a, Laws.FitsSlot.Statement (.xqnt tgt bf sc stat d a) :=
  fun tgt bf sc stat d a => Laws.FitsSlot.of_eq rfl (by decide) (by have := tgt.code_lt; have := Bool.toNat_lt bf; have := sc.isLt; have := Bool.toNat_lt stat; have := d.isLt; have := a.isLt; omega)
theorem Laws.FitsSlot.xdeq : ∀ from_ bf sc d a, Laws.FitsSlot.Statement (.xdeq from_ bf sc d a) :=
  fun from_ bf sc d a => Laws.FitsSlot.of_eq rfl (by decide) (by have := from_.code_lt; have := Bool.toNat_lt bf; have := sc.isLt; have := d.isLt; have := a.isLt; omega)
theorem Laws.FitsSlot.xtrn : ∀ w d a, Laws.FitsSlot.Statement (.xtrn w d a) :=
  fun w d a => Laws.FitsSlot.of_eq rfl (by decide) (by have := w.isLt; have := d.isLt; have := a.isLt; omega)
theorem Laws.FitsSlot.xexp : ∀ ceil d a, Laws.FitsSlot.Statement (.xexp ceil d a) :=
  fun ceil d a => Laws.FitsSlot.of_eq rfl (by decide) (by have := ceil.isLt; have := d.isLt; have := a.isLt; omega)
theorem Laws.FitsSlot.xcmp : ∀ ceil d a, Laws.FitsSlot.Statement (.xcmp ceil d a) :=
  fun ceil d a => Laws.FitsSlot.of_eq rfl (by decide) (by have := ceil.isLt; have := d.isLt; have := a.isLt; omega)
theorem Laws.FitsSlot.xscl : ∀ sc a, Laws.FitsSlot.Statement (.xscl sc a) :=
  fun sc a => Laws.FitsSlot.of_eq rfl (by decide) (by have := sc.isLt; have := a.isLt; omega)
theorem Laws.FitsSlot.xstat : ∀ clr d, Laws.FitsSlot.Statement (.xstat clr d) :=
  fun clr d => Laws.FitsSlot.of_eq rfl (by decide) (by have := Bool.toNat_lt clr; have := d.isLt; omega)
theorem Laws.FitsSlot.xpack : ∀ f d a, Laws.FitsSlot.Statement (.xpack f d a) :=
  fun f d a => Laws.FitsSlot.of_eq rfl (by decide) (by have := f.code_lt; have := d.isLt; have := a.isLt; omega)
theorem Laws.FitsSlot.xunpk : ∀ f d a, Laws.FitsSlot.Statement (.xunpk f d a) :=
  fun f d a => Laws.FitsSlot.of_eq rfl (by decide) (by have := f.code_lt; have := d.isLt; have := a.isLt; omega)
theorem Laws.FitsSlot.tdesc : ∀ td sa, Laws.FitsSlot.Statement (.tdesc td sa) :=
  fun td sa => Laws.FitsSlot.of_eq rfl (by decide) (by have := td.isLt; have := sa.isLt; omega)
theorem Laws.FitsSlot.mma : ∀ tile ta tb op cnt z ck, Laws.FitsSlot.Statement (.mma tile ta tb op cnt z ck) :=
  fun tile ta tb op cnt z ck => Laws.FitsSlot.of_eq rfl (by decide) (by have := tile.isLt; have := ta.isLt; have := tb.isLt; have := op.code_lt; have := cnt.isLt; have := Bool.toNat_lt z; have := Bool.toNat_lt ck; omega)
theorem Laws.FitsSlot.mmap : ∀ tile ta tb cnt z ck, Laws.FitsSlot.Statement (.mmap tile ta tb cnt z ck) :=
  fun tile ta tb cnt z ck => Laws.FitsSlot.of_eq rfl (by decide) (by have := tile.isLt; have := ta.isLt; have := tb.isLt; have := cnt.isLt; have := Bool.toNat_lt z; have := Bool.toNat_lt ck; omega)
theorem Laws.FitsSlot.cpat : ∀ sa, Laws.FitsSlot.Statement (.cpat sa) :=
  fun sa => Laws.FitsSlot.of_eq rfl (by decide) (by have := sa.isLt; omega)
theorem Laws.FitsSlot.mzero : ∀ tile cnt, Laws.FitsSlot.Statement (.mzero tile cnt) :=
  fun tile cnt => Laws.FitsSlot.of_eq rfl (by decide) (by have := tile.isLt; have := cnt.isLt; omega)
theorem Laws.FitsSlot.mdrain : ∀ tile fmt sa cnt codec stat chk, Laws.FitsSlot.Statement (.mdrain tile fmt sa cnt codec stat chk) :=
  fun tile fmt sa cnt codec stat chk => Laws.FitsSlot.of_eq rfl (by decide) (by have := tile.isLt; have := fmt.code_lt; have := sa.isLt; have := cnt.isLt; have := codec.isLt; have := Bool.toNat_lt stat; have := Bool.toNat_lt chk; omega)
theorem Laws.FitsSlot.mboomRmax : ∀ tile sa cnt, Laws.FitsSlot.Statement (.mboomRmax tile sa cnt) :=
  fun tile sa cnt => Laws.FitsSlot.of_eq rfl (by decide) (by have := tile.isLt; have := sa.isLt; have := cnt.isLt; omega)
theorem Laws.FitsSlot.mboomRsum : ∀ tile sa cnt, Laws.FitsSlot.Statement (.mboomRsum tile sa cnt) :=
  fun tile sa cnt => Laws.FitsSlot.of_eq rfl (by decide) (by have := tile.isLt; have := sa.isLt; have := cnt.isLt; omega)
theorem Laws.FitsSlot.mboomRscale : ∀ tile sa cnt, Laws.FitsSlot.Statement (.mboomRscale tile sa cnt) :=
  fun tile sa cnt => Laws.FitsSlot.of_eq rfl (by decide) (by have := tile.isLt; have := sa.isLt; have := cnt.isLt; omega)
theorem Laws.FitsSlot.mboomCscale : ∀ tile sa cnt, Laws.FitsSlot.Statement (.mboomCscale tile sa cnt) :=
  fun tile sa cnt => Laws.FitsSlot.of_eq rfl (by decide) (by have := tile.isLt; have := sa.isLt; have := cnt.isLt; omega)
theorem Laws.FitsSlot.mboomSexp : ∀ tile sa cnt, Laws.FitsSlot.Statement (.mboomSexp tile sa cnt) :=
  fun tile sa cnt => Laws.FitsSlot.of_eq rfl (by decide) (by have := tile.isLt; have := sa.isLt; have := cnt.isLt; omega)
theorem Laws.FitsSlot.mboomNorm : ∀ tile cnt, Laws.FitsSlot.Statement (.mboomNorm tile cnt) :=
  fun tile cnt => Laws.FitsSlot.of_eq rfl (by decide) (by have := tile.isLt; have := cnt.isLt; omega)
theorem Laws.FitsSlot.mboomCzero : ∀ tile cnt, Laws.FitsSlot.Statement (.mboomCzero tile cnt) :=
  fun tile cnt => Laws.FitsSlot.of_eq rfl (by decide) (by have := tile.isLt; have := cnt.isLt; omega)
theorem Laws.FitsSlot.mboomRstat : ∀ tile sa cnt, Laws.FitsSlot.Statement (.mboomRstat tile sa cnt) :=
  fun tile sa cnt => Laws.FitsSlot.of_eq rfl (by decide) (by have := tile.isLt; have := sa.isLt; have := cnt.isLt; omega)
theorem Laws.FitsSlot.attn : ∀ tile tq sh sr, Laws.FitsSlot.Statement (.attn tile tq sh sr) :=
  fun tile tq sh sr => Laws.FitsSlot.of_eq rfl (by decide) (by have := tile.isLt; have := tq.isLt; have := sh.isLt; have := sr.isLt; omega)
theorem Laws.FitsSlot.acarryExp : ∀ tile l j row, Laws.FitsSlot.Statement (.acarryExp tile l j row) :=
  fun tile l j row => Laws.FitsSlot.of_eq rfl (by decide) (by have := tile.isLt; have := Bool.toNat_lt l; have := j.isLt; have := row.isLt; omega)
theorem Laws.FitsSlot.acarryImp : ∀ tile l j row, Laws.FitsSlot.Statement (.acarryImp tile l j row) :=
  fun tile l j row => Laws.FitsSlot.of_eq rfl (by decide) (by have := tile.isLt; have := Bool.toNat_lt l; have := j.isLt; have := row.isLt; omega)
theorem Laws.FitsSlot.mstat : ∀ sa item, Laws.FitsSlot.Statement (.mstat sa item) :=
  fun sa item => Laws.FitsSlot.of_eq rfl (by decide) (by have := sa.isLt; have := item.isLt; omega)
theorem Laws.FitsSlot.halyardEntryStart : ∀ a0 a1, Laws.FitsSlot.Statement (.halyardEntryStart a0 a1) := fun _ _ => Laws.FitsSlot.of_none rfl
theorem Laws.FitsSlot.mmaGroupEnd : ∀ a0, Laws.FitsSlot.Statement (.mmaGroupEnd a0) := fun _ => Laws.FitsSlot.of_none rfl
theorem Laws.FitsSlot.attnPageEnd : ∀ a0, Laws.FitsSlot.Statement (.attnPageEnd a0) := fun _ => Laws.FitsSlot.of_none rfl
theorem Laws.FitsSlot.kvFaultService : ∀ a0, Laws.FitsSlot.Statement (.kvFaultService a0) := fun _ => Laws.FitsSlot.of_none rfl
theorem Laws.FitsSlot.copy : ∀ sa ch, Laws.FitsSlot.Statement (.copy sa ch) :=
  fun sa ch => Laws.FitsSlot.of_eq rfl (by decide) (by have := sa.isLt; have := ch.isLt; omega)
theorem Laws.FitsSlot.gath : ∀ sa ch, Laws.FitsSlot.Statement (.gath sa ch) :=
  fun sa ch => Laws.FitsSlot.of_eq rfl (by decide) (by have := sa.isLt; have := ch.isLt; omega)
theorem Laws.FitsSlot.scat : ∀ sa ch, Laws.FitsSlot.Statement (.scat sa ch) :=
  fun sa ch => Laws.FitsSlot.of_eq rfl (by decide) (by have := sa.isLt; have := ch.isLt; omega)
theorem Laws.FitsSlot.put : ∀ sa win, Laws.FitsSlot.Statement (.put sa win) :=
  fun sa win => Laws.FitsSlot.of_eq rfl (by decide) (by have := sa.isLt; have := win.isLt; omega)
theorem Laws.FitsSlot.get : ∀ sa win, Laws.FitsSlot.Statement (.get sa win) :=
  fun sa win => Laws.FitsSlot.of_eq rfl (by decide) (by have := sa.isLt; have := win.isLt; omega)
theorem Laws.FitsSlot.coll : ∀ sa, Laws.FitsSlot.Statement (.coll sa) :=
  fun sa => Laws.FitsSlot.of_eq rfl (by decide) (by have := sa.isLt; omega)
theorem Laws.FitsSlot.signal : ∀ sa sb scope, Laws.FitsSlot.Statement (.signal sa sb scope) :=
  fun sa sb scope => Laws.FitsSlot.of_eq rfl (by decide) (by have := sa.isLt; have := sb.isLt; have := scope.isLt; omega)
theorem Laws.FitsSlot.bar : ∀ scope id, Laws.FitsSlot.Statement (.bar scope id) :=
  fun scope id => Laws.FitsSlot.of_eq rfl (by decide) (by have := scope.isLt; have := id.isLt; omega)
theorem Laws.FitsSlot.launch : ∀ sa, Laws.FitsSlot.Statement (.launch sa) :=
  fun sa => Laws.FitsSlot.of_eq rfl (by decide) (by have := sa.isLt; omega)
theorem Laws.FitsSlot.take : ∀ sa sb max, Laws.FitsSlot.Statement (.take sa sb max) :=
  fun sa sb max => Laws.FitsSlot.of_eq rfl (by decide) (by have := sa.isLt; have := sb.isLt; have := max.isLt; omega)
theorem Laws.FitsSlot.trig : Laws.FitsSlot.Statement (.trig) :=
  Laws.FitsSlot.of_eq rfl (by decide) (by omega)
theorem Laws.FitsSlot.hist : ∀ sa sb, Laws.FitsSlot.Statement (.hist sa sb) :=
  fun sa sb => Laws.FitsSlot.of_eq rfl (by decide) (by have := sa.isLt; have := sb.isLt; omega)
theorem Laws.FitsSlot.hlatch : ∀ sa, Laws.FitsSlot.Statement (.hlatch sa) :=
  fun sa => Laws.FitsSlot.of_eq rfl (by decide) (by have := sa.isLt; omega)
theorem Laws.FitsSlot.topk : ∀ sa, Laws.FitsSlot.Statement (.topk sa) :=
  fun sa => Laws.FitsSlot.of_eq rfl (by decide) (by have := sa.isLt; omega)
theorem Laws.FitsSlot.topkr : ∀ sa, Laws.FitsSlot.Statement (.topkr sa) :=
  fun sa => Laws.FitsSlot.of_eq rfl (by decide) (by have := sa.isLt; omega)
theorem Laws.FitsSlot.kvapp : ∀ sa sb, Laws.FitsSlot.Statement (.kvapp sa sb) :=
  fun sa sb => Laws.FitsSlot.of_eq rfl (by decide) (by have := sa.isLt; have := sb.isLt; omega)
theorem Laws.FitsSlot.kvsync : ∀ scope, Laws.FitsSlot.Statement (.kvsync scope) :=
  fun scope => Laws.FitsSlot.of_eq rfl (by decide) (by have := scope.isLt; omega)
theorem Laws.FitsSlot.kvfork : ∀ sa sb, Laws.FitsSlot.Statement (.kvfork sa sb) :=
  fun sa sb => Laws.FitsSlot.of_eq rfl (by decide) (by have := sa.isLt; have := sb.isLt; omega)
theorem Laws.FitsSlot.kvfree : ∀ sa, Laws.FitsSlot.Statement (.kvfree sa) :=
  fun sa => Laws.FitsSlot.of_eq rfl (by decide) (by have := sa.isLt; omega)
theorem Laws.FitsSlot.kvtrim : ∀ sa sb, Laws.FitsSlot.Statement (.kvtrim sa sb) :=
  fun sa sb => Laws.FitsSlot.of_eq rfl (by decide) (by have := sa.isLt; have := sb.isLt; omega)
theorem Laws.FitsSlot.kvcmpt : ∀ sa, Laws.FitsSlot.Statement (.kvcmpt sa) :=
  fun sa => Laws.FitsSlot.of_eq rfl (by decide) (by have := sa.isLt; omega)
theorem Laws.FitsSlot.kvpf : ∀ sa sb, Laws.FitsSlot.Statement (.kvpf sa sb) :=
  fun sa sb => Laws.FitsSlot.of_eq rfl (by decide) (by have := sa.isLt; have := sb.isLt; omega)
theorem Laws.FitsSlot.kvdem : ∀ sa sb mx, Laws.FitsSlot.Statement (.kvdem sa sb mx) :=
  fun sa sb mx => Laws.FitsSlot.of_eq rfl (by decide) (by have := sa.isLt; have := sb.isLt; have := Bool.toNat_lt mx; omega)
theorem Laws.FitsSlot.kvlend : ∀ sa, Laws.FitsSlot.Statement (.kvlend sa) :=
  fun sa => Laws.FitsSlot.of_eq rfl (by decide) (by have := sa.isLt; omega)
theorem Laws.FitsSlot.kvrsv : ∀ sa pair, Laws.FitsSlot.Statement (.kvrsv sa pair) :=
  fun sa pair => Laws.FitsSlot.of_eq rfl (by decide) (by have := sa.isLt; have := pair.isLt; omega)
theorem Laws.FitsSlot.kvqry : ∀ sa sb item, Laws.FitsSlot.Statement (.kvqry sa sb item) :=
  fun sa sb item => Laws.FitsSlot.of_eq rfl (by decide) (by have := sa.isLt; have := sb.isLt; have := item.isLt; omega)
theorem Laws.FitsSlot.time : ∀ sa, Laws.FitsSlot.Statement (.time sa) :=
  fun sa => Laws.FitsSlot.of_eq rfl (by decide) (by have := sa.isLt; omega)
theorem Laws.FitsSlot.perf : ∀ sa ctr, Laws.FitsSlot.Statement (.perf sa ctr) :=
  fun sa ctr => Laws.FitsSlot.of_eq rfl (by decide) (by have := sa.isLt; have := ctr.isLt; omega)
theorem Laws.FitsSlot.syscVersion : ∀ sa, Laws.FitsSlot.Statement (.syscVersion sa) :=
  fun sa => Laws.FitsSlot.of_eq rfl (by decide) (by have := sa.isLt; omega)
theorem Laws.FitsSlot.syscHealth : ∀ sa, Laws.FitsSlot.Statement (.syscHealth sa) :=
  fun sa => Laws.FitsSlot.of_eq rfl (by decide) (by have := sa.isLt; omega)
theorem Laws.FitsSlot.syscBarrierSetup : ∀ sa, Laws.FitsSlot.Statement (.syscBarrierSetup sa) :=
  fun sa => Laws.FitsSlot.of_eq rfl (by decide) (by have := sa.isLt; omega)
theorem Laws.FitsSlot.syscBarrierCancel : ∀ sa, Laws.FitsSlot.Statement (.syscBarrierCancel sa) :=
  fun sa => Laws.FitsSlot.of_eq rfl (by decide) (by have := sa.isLt; omega)
theorem Laws.FitsSlot.syscReleaseHeld : ∀ sa, Laws.FitsSlot.Statement (.syscReleaseHeld sa) :=
  fun sa => Laws.FitsSlot.of_eq rfl (by decide) (by have := sa.isLt; omega)
theorem Laws.FitsSlot.syscCancelHeld : ∀ sa, Laws.FitsSlot.Statement (.syscCancelHeld sa) :=
  fun sa => Laws.FitsSlot.of_eq rfl (by decide) (by have := sa.isLt; omega)
theorem Laws.FitsSlot.winreg : ∀ sa sb, Laws.FitsSlot.Statement (.winreg sa sb) :=
  fun sa sb => Laws.FitsSlot.of_eq rfl (by decide) (by have := sa.isLt; have := sb.isLt; omega)
theorem Laws.FitsSlot.qsend : ∀ sa sb, Laws.FitsSlot.Statement (.qsend sa sb) :=
  fun sa sb => Laws.FitsSlot.of_eq rfl (by decide) (by have := sa.isLt; have := sb.isLt; omega)
theorem Laws.FitsSlot.qsendDeferredDeliver : ∀ a0, Laws.FitsSlot.Statement (.qsendDeferredDeliver a0) := fun _ => Laws.FitsSlot.of_none rfl
theorem Laws.FitsSlot.engineAccept : ∀ a0, Laws.FitsSlot.Statement (.engineAccept a0) := fun _ => Laws.FitsSlot.of_none rfl
theorem Laws.FitsSlot.copyGranuleLands : ∀ a0 a1, Laws.FitsSlot.Statement (.copyGranuleLands a0 a1) := fun _ _ => Laws.FitsSlot.of_none rfl
theorem Laws.FitsSlot.engineThreadComplete : ∀ a0, Laws.FitsSlot.Statement (.engineThreadComplete a0) := fun _ => Laws.FitsSlot.of_none rfl
theorem Laws.FitsSlot.kvlendRun : ∀ a0, Laws.FitsSlot.Statement (.kvlendRun a0) := fun _ => Laws.FitsSlot.of_none rfl
theorem Laws.FitsSlot.putLandedAtOwner : ∀ a0 a1 a2 a3 a4, Laws.FitsSlot.Statement (.putLandedAtOwner a0 a1 a2 a3 a4) := fun _ _ _ _ _ => Laws.FitsSlot.of_none rfl
theorem Laws.FitsSlot.putAckReturn : ∀ a0, Laws.FitsSlot.Statement (.putAckReturn a0) := fun _ => Laws.FitsSlot.of_none rfl
theorem Laws.FitsSlot.frameTake : ∀ a0 a1 a2, Laws.FitsSlot.Statement (.frameTake a0 a1 a2) := fun _ _ _ => Laws.FitsSlot.of_none rfl
theorem Laws.FitsSlot.frameReturn : ∀ a0 a1 a2, Laws.FitsSlot.Statement (.frameReturn a0 a1 a2) := fun _ _ _ => Laws.FitsSlot.of_none rfl
theorem Laws.FitsSlot.filerFileEntry : ∀ a0, Laws.FitsSlot.Statement (.filerFileEntry a0) := fun _ => Laws.FitsSlot.of_none rfl
theorem Laws.FitsSlot.ladderRun : ∀ a0 a1, Laws.FitsSlot.Statement (.ladderRun a0 a1) := fun _ _ => Laws.FitsSlot.of_none rfl
theorem Laws.FitsSlot.scrubberRun : ∀ a0 a1, Laws.FitsSlot.Statement (.scrubberRun a0 a1) := fun _ _ => Laws.FitsSlot.of_none rfl
theorem Laws.FitsSlot.controllerPromote : ∀ a0 a1 a2, Laws.FitsSlot.Statement (.controllerPromote a0 a1 a2) := fun _ _ _ => Laws.FitsSlot.of_none rfl
theorem Laws.FitsSlot.spindleDecide : ∀ a0, Laws.FitsSlot.Statement (.spindleDecide a0) := fun _ => Laws.FitsSlot.of_none rfl
theorem Laws.FitsSlot.dependenceDecided : ∀ a0, Laws.FitsSlot.Statement (.dependenceDecided a0) := fun _ => Laws.FitsSlot.of_none rfl
theorem Laws.FitsSlot.dispatchGang : ∀ a0, Laws.FitsSlot.Statement (.dispatchGang a0) := fun _ => Laws.FitsSlot.of_none rfl
theorem Laws.FitsSlot.passedOverTimeout : ∀ a0, Laws.FitsSlot.Statement (.passedOverTimeout a0) := fun _ => Laws.FitsSlot.of_none rfl
theorem Laws.FitsSlot.preemptionCall : ∀ a0, Laws.FitsSlot.Statement (.preemptionCall a0) := fun _ => Laws.FitsSlot.of_none rfl
theorem Laws.FitsSlot.homeRead : ∀ a0 a1, Laws.FitsSlot.Statement (.homeRead a0 a1) := fun _ _ => Laws.FitsSlot.of_none rfl
theorem Laws.FitsSlot.homeWiRead : ∀ a0 a1, Laws.FitsSlot.Statement (.homeWiRead a0 a1) := fun _ _ => Laws.FitsSlot.of_none rfl
theorem Laws.FitsSlot.homeWriteAccept : ∀ a0 a1, Laws.FitsSlot.Statement (.homeWriteAccept a0 a1) := fun _ _ => Laws.FitsSlot.of_none rfl
theorem Laws.FitsSlot.homeOwnRequest : ∀ a0 a1, Laws.FitsSlot.Statement (.homeOwnRequest a0 a1) := fun _ _ => Laws.FitsSlot.of_none rfl
theorem Laws.FitsSlot.homeSurrender : ∀ a0 a1, Laws.FitsSlot.Statement (.homeSurrender a0 a1) := fun _ _ => Laws.FitsSlot.of_none rfl
theorem Laws.FitsSlot.registrantRevocation : ∀ a0 a1, Laws.FitsSlot.Statement (.registrantRevocation a0 a1) := fun _ _ => Laws.FitsSlot.of_none rfl
theorem Laws.FitsSlot.forwardedRead : ∀ a0, Laws.FitsSlot.Statement (.forwardedRead a0) := fun _ => Laws.FitsSlot.of_none rfl
theorem Laws.FitsSlot.coreInvalidation : ∀ a0 a1, Laws.FitsSlot.Statement (.coreInvalidation a0 a1) := fun _ _ => Laws.FitsSlot.of_none rfl
theorem Laws.FitsSlot.summaryBucketClear : ∀ a0 a1, Laws.FitsSlot.Statement (.summaryBucketClear a0 a1) := fun _ _ => Laws.FitsSlot.of_none rfl
theorem Laws.FitsSlot.l2UeDetect : ∀ a0 a1 a2, Laws.FitsSlot.Statement (.l2UeDetect a0 a1 a2) := fun _ _ _ => Laws.FitsSlot.of_none rfl
theorem Laws.FitsSlot.translationChange : ∀ a0 a1 a2, Laws.FitsSlot.Statement (.translationChange a0 a1 a2) := fun _ _ _ => Laws.FitsSlot.of_none rfl
theorem Laws.FitsSlot.mapChange : ∀ a0 a1 a2 a3, Laws.FitsSlot.Statement (.mapChange a0 a1 a2 a3) := fun _ _ _ _ => Laws.FitsSlot.of_none rfl
theorem Laws.FitsSlot.coreReef : ∀ a0 a1, Laws.FitsSlot.Statement (.coreReef a0 a1) := fun _ _ => Laws.FitsSlot.of_none rfl
theorem Laws.FitsSlot.debugResume : ∀ a0, Laws.FitsSlot.Statement (.debugResume a0) := fun _ => Laws.FitsSlot.of_none rfl
theorem Laws.FitsSlot.launchWindowStore : ∀ a0 a1, Laws.FitsSlot.Statement (.launchWindowStore a0 a1) := fun _ _ => Laws.FitsSlot.of_none rfl
theorem Laws.FitsSlot.shroudOpen : ∀ a0, Laws.FitsSlot.Statement (.shroudOpen a0) := fun _ => Laws.FitsSlot.of_none rfl
theorem Laws.FitsSlot.shroudReset : ∀ a0, Laws.FitsSlot.Statement (.shroudReset a0) := fun _ => Laws.FitsSlot.of_none rfl
theorem Laws.FitsSlot.shroudDrainEnd : ∀ a0, Laws.FitsSlot.Statement (.shroudDrainEnd a0) := fun _ => Laws.FitsSlot.of_none rfl
theorem Laws.FitsSlot.shroudZeroiseEnd : ∀ a0, Laws.FitsSlot.Statement (.shroudZeroiseEnd a0) := fun _ => Laws.FitsSlot.of_none rfl
theorem Laws.FitsSlot.mboxConfigureStore : ∀ a0 a1, Laws.FitsSlot.Statement (.mboxConfigureStore a0 a1) := fun _ _ => Laws.FitsSlot.of_none rfl
theorem Laws.FitsSlot.mboxUnconfigureStore : ∀ a0 a1, Laws.FitsSlot.Statement (.mboxUnconfigureStore a0 a1) := fun _ _ => Laws.FitsSlot.of_none rfl
theorem Laws.FitsSlot.mboxRegisterPodWindow : ∀ a0 a1, Laws.FitsSlot.Statement (.mboxRegisterPodWindow a0 a1) := fun _ _ => Laws.FitsSlot.of_none rfl
theorem Laws.FitsSlot.mboxWithdrawPodWindow : ∀ a0 a1, Laws.FitsSlot.Statement (.mboxWithdrawPodWindow a0 a1) := fun _ _ => Laws.FitsSlot.of_none rfl
theorem Laws.FitsSlot.mboxSetSpnCtl : ∀ a0 a1, Laws.FitsSlot.Statement (.mboxSetSpnCtl a0 a1) := fun _ _ => Laws.FitsSlot.of_none rfl
theorem Laws.FitsSlot.mboxSetFaultRecordArea : ∀ a0 a1, Laws.FitsSlot.Statement (.mboxSetFaultRecordArea a0 a1) := fun _ _ => Laws.FitsSlot.of_none rfl
theorem Laws.FitsSlot.mboxSetTrapRecords : ∀ a0 a1, Laws.FitsSlot.Statement (.mboxSetTrapRecords a0 a1) := fun _ _ => Laws.FitsSlot.of_none rfl
theorem Laws.FitsSlot.mboxSetPinOrClass : ∀ a0 a1, Laws.FitsSlot.Statement (.mboxSetPinOrClass a0 a1) := fun _ _ => Laws.FitsSlot.of_none rfl
theorem Laws.FitsSlot.mboxDeclareMeasuredImage : ∀ a0 a1, Laws.FitsSlot.Statement (.mboxDeclareMeasuredImage a0 a1) := fun _ _ => Laws.FitsSlot.of_none rfl
theorem Laws.FitsSlot.mboxWriteWindowEntry : ∀ a0 a1, Laws.FitsSlot.Statement (.mboxWriteWindowEntry a0 a1) := fun _ _ => Laws.FitsSlot.of_none rfl
theorem Laws.FitsSlot.mboxHeldLaunchPrivilege : ∀ a0 a1, Laws.FitsSlot.Statement (.mboxHeldLaunchPrivilege a0 a1) := fun _ _ => Laws.FitsSlot.of_none rfl
theorem Laws.FitsSlot.mboxOfferLendingPool : ∀ a0 a1, Laws.FitsSlot.Statement (.mboxOfferLendingPool a0 a1) := fun _ _ => Laws.FitsSlot.of_none rfl
theorem Laws.FitsSlot.mboxWithdrawLendingPool : ∀ a0 a1, Laws.FitsSlot.Statement (.mboxWithdrawLendingPool a0 a1) := fun _ _ => Laws.FitsSlot.of_none rfl
theorem Laws.FitsSlot.mboxSetTimeMaster : ∀ a0 a1, Laws.FitsSlot.Statement (.mboxSetTimeMaster a0 a1) := fun _ _ => Laws.FitsSlot.of_none rfl
theorem Laws.FitsSlot.migrateStart : ∀ a0 a1, Laws.FitsSlot.Statement (.migrateStart a0 a1) := fun _ _ => Laws.FitsSlot.of_none rfl
theorem Laws.FitsSlot.migrateRound : ∀ a0 a1, Laws.FitsSlot.Statement (.migrateRound a0 a1) := fun _ _ => Laws.FitsSlot.of_none rfl
theorem Laws.FitsSlot.migratePause : ∀ a0 a1 a2, Laws.FitsSlot.Statement (.migratePause a0 a1 a2) := fun _ _ _ => Laws.FitsSlot.of_none rfl
theorem Laws.FitsSlot.migrateSave : ∀ a0 a1, Laws.FitsSlot.Statement (.migrateSave a0 a1) := fun _ _ => Laws.FitsSlot.of_none rfl
theorem Laws.FitsSlot.migrateRestore : ∀ a0 a1, Laws.FitsSlot.Statement (.migrateRestore a0 a1) := fun _ _ => Laws.FitsSlot.of_none rfl
theorem Laws.FitsSlot.mboxFirmwareUpdate : ∀ a0 a1, Laws.FitsSlot.Statement (.mboxFirmwareUpdate a0 a1) := fun _ _ => Laws.FitsSlot.of_none rfl
theorem Laws.FitsSlot.noteHeadWrite : ∀ a0 a1, Laws.FitsSlot.Statement (.noteHeadWrite a0 a1) := fun _ _ => Laws.FitsSlot.of_none rfl
theorem Laws.FitsSlot.biasToHost : ∀ a0 a1, Laws.FitsSlot.Statement (.biasToHost a0 a1) := fun _ _ => Laws.FitsSlot.of_none rfl
theorem Laws.FitsSlot.biasToDevice : ∀ a0 a1, Laws.FitsSlot.Statement (.biasToDevice a0 a1) := fun _ _ => Laws.FitsSlot.of_none rfl
theorem Laws.FitsSlot.biasFlipEffect : ∀ a0 a1, Laws.FitsSlot.Statement (.biasFlipEffect a0 a1) := fun _ _ => Laws.FitsSlot.of_none rfl
theorem Laws.FitsSlot.hostCxlMemAccess : ∀ a0 a1 a2, Laws.FitsSlot.Statement (.hostCxlMemAccess a0 a1 a2) := fun _ _ _ => Laws.FitsSlot.of_none rfl
theorem Laws.FitsSlot.hostSnoop : ∀ a0, Laws.FitsSlot.Statement (.hostSnoop a0) := fun _ => Laws.FitsSlot.of_none rfl
theorem Laws.FitsSlot.poolBackInvalidate : ∀ a0, Laws.FitsSlot.Statement (.poolBackInvalidate a0) := fun _ => Laws.FitsSlot.of_none rfl
theorem Laws.FitsSlot.poolDeviceTimeout : ∀ a0 a1, Laws.FitsSlot.Statement (.poolDeviceTimeout a0 a1) := fun _ _ => Laws.FitsSlot.of_none rfl
theorem Laws.FitsSlot.gateAuditRead : ∀ a0, Laws.FitsSlot.Statement (.gateAuditRead a0) := fun _ => Laws.FitsSlot.of_none rfl
theorem Laws.FitsSlot.spnStatRead : ∀ a0, Laws.FitsSlot.Statement (.spnStatRead a0) := fun _ => Laws.FitsSlot.of_none rfl
theorem Laws.FitsSlot.pksStatRead : Laws.FitsSlot.Statement (.pksStatRead) := Laws.FitsSlot.of_none rfl
theorem Laws.FitsSlot.registerWrite : ∀ a0 a1 a2, Laws.FitsSlot.Statement (.registerWrite a0 a1 a2) := fun _ _ _ => Laws.FitsSlot.of_none rfl
theorem Laws.FitsSlot.zellenFlitReceive : ∀ a0 a1 a2 a3, Laws.FitsSlot.Statement (.zellenFlitReceive a0 a1 a2 a3) := fun _ _ _ _ => Laws.FitsSlot.of_none rfl
theorem Laws.FitsSlot.zellenLinkDown : ∀ a0, Laws.FitsSlot.Statement (.zellenLinkDown a0) := fun _ => Laws.FitsSlot.of_none rfl
theorem Laws.FitsSlot.zellenLinkUp : ∀ a0, Laws.FitsSlot.Statement (.zellenLinkUp a0) := fun _ => Laws.FitsSlot.of_none rfl
theorem Laws.FitsSlot.timeSyncFlit : ∀ a0 a1, Laws.FitsSlot.Statement (.timeSyncFlit a0 a1) := fun _ _ => Laws.FitsSlot.of_none rfl
theorem Laws.FitsSlot.spdmSessionOpen : ∀ a0 a1, Laws.FitsSlot.Statement (.spdmSessionOpen a0 a1) := fun _ _ => Laws.FitsSlot.of_none rfl
theorem Laws.FitsSlot.ideKmQuery : ∀ a0 a1, Laws.FitsSlot.Statement (.ideKmQuery a0 a1) := fun _ _ => Laws.FitsSlot.of_none rfl
theorem Laws.FitsSlot.ideKmKeyProg : ∀ a0 a1 a2 a3 a4, Laws.FitsSlot.Statement (.ideKmKeyProg a0 a1 a2 a3 a4) := fun _ _ _ _ _ => Laws.FitsSlot.of_none rfl
theorem Laws.FitsSlot.ideKmKeySetGo : ∀ a0 a1 a2 a3, Laws.FitsSlot.Statement (.ideKmKeySetGo a0 a1 a2 a3) := fun _ _ _ _ => Laws.FitsSlot.of_none rfl
theorem Laws.FitsSlot.ideKmKeySetStop : ∀ a0 a1 a2 a3, Laws.FitsSlot.Statement (.ideKmKeySetStop a0 a1 a2 a3) := fun _ _ _ _ => Laws.FitsSlot.of_none rfl
theorem Laws.FitsSlot.spdmSessionEnd : ∀ a0, Laws.FitsSlot.Statement (.spdmSessionEnd a0) := fun _ => Laws.FitsSlot.of_none rfl
theorem Laws.FitsSlot.spdmAttestationRequest : ∀ a0 a1, Laws.FitsSlot.Statement (.spdmAttestationRequest a0 a1) := fun _ _ => Laws.FitsSlot.of_none rfl
theorem Laws.FitsSlot.ideIntegrityFailure : ∀ a0, Laws.FitsSlot.Statement (.ideIntegrityFailure a0) := fun _ => Laws.FitsSlot.of_none rfl
theorem Laws.FitsSlot.linkReset : Laws.FitsSlot.Statement (.linkReset) := Laws.FitsSlot.of_none rfl
theorem Laws.FitsSlot.powerOn : ∀ a0 a1 a2 a3, Laws.FitsSlot.Statement (.powerOn a0 a1 a2 a3) := fun _ _ _ _ => Laws.FitsSlot.of_none rfl
theorem Laws.FitsSlot.packageReset : Laws.FitsSlot.Statement (.packageReset) := Laws.FitsSlot.of_none rfl
theorem Laws.FitsSlot.vfFunctionLevelReset : ∀ a0, Laws.FitsSlot.Statement (.vfFunctionLevelReset a0) := fun _ => Laws.FitsSlot.of_none rfl
theorem Laws.FitsSlot.powerLimitExceeded : ∀ a0 a1, Laws.FitsSlot.Statement (.powerLimitExceeded a0 a1) := fun _ _ => Laws.FitsSlot.of_none rfl
theorem Laws.FitsSlot.thermalThrottle : ∀ a0 a1, Laws.FitsSlot.Statement (.thermalThrottle a0 a1) := fun _ _ => Laws.FitsSlot.of_none rfl
theorem Laws.FitsSlot.thermalStop : ∀ a0, Laws.FitsSlot.Statement (.thermalStop a0) := fun _ => Laws.FitsSlot.of_none rfl
theorem Laws.FitsSlot.halyardEntryEnd : ∀ a0 a1, Laws.FitsSlot.Statement (.halyardEntryEnd a0 a1) := fun _ _ => Laws.FitsSlot.of_none rfl
theorem Laws.FitsSlot.moveCommit : ∀ a0 a1 a2, Laws.FitsSlot.Statement (.moveCommit a0 a1 a2) := fun _ _ _ => Laws.FitsSlot.of_none rfl
theorem Laws.FitsSlot.timebaseTick : Laws.FitsSlot.Statement (.timebaseTick) := Laws.FitsSlot.of_none rfl
theorem Laws.FitsSlot.walkerAnswer : ∀ a0, Laws.FitsSlot.Statement (.walkerAnswer a0) := fun _ => Laws.FitsSlot.of_none rfl
theorem Laws.FitsSlot.wiCopyDrop : ∀ a0 a1, Laws.FitsSlot.Statement (.wiCopyDrop a0 a1) := fun _ _ => Laws.FitsSlot.of_none rfl
theorem Laws.FitsSlot.debuggerAttach : ∀ a0 a1 a2, Laws.FitsSlot.Statement (.debuggerAttach a0 a1 a2) := fun _ _ _ => Laws.FitsSlot.of_none rfl
theorem Laws.FitsSlot.launchKill : ∀ a0, Laws.FitsSlot.Statement (.launchKill a0) := fun _ => Laws.FitsSlot.of_none rfl
theorem Laws.FitsSlot.engineReset : ∀ a0 a1, Laws.FitsSlot.Statement (.engineReset a0 a1) := fun _ _ => Laws.FitsSlot.of_none rfl
theorem Laws.FitsSlot.throttlingEnd : ∀ a0 a1 a2, Laws.FitsSlot.Statement (.throttlingEnd a0 a1 a2) := fun _ _ _ => Laws.FitsSlot.of_none rfl
theorem Laws.FitsSlot.powerOff : Laws.FitsSlot.Statement (.powerOff) := Laws.FitsSlot.of_none rfl
theorem Laws.FitsSlot.mboxUnknownCommand : ∀ a0 a1 a2, Laws.FitsSlot.Statement (.mboxUnknownCommand a0 a1 a2) := fun _ _ _ => Laws.FitsSlot.of_none rfl
theorem Laws.FitsSlot.syscUnknownService : ∀ sa svc, Laws.FitsSlot.Statement (.syscUnknownService sa svc) :=
  fun sa svc => Laws.FitsSlot.of_eq rfl (by decide) (by have := sa.isLt; have := svc.isLt; omega)

end Sys2Proof
end

