-- ==== Sys2Proof/Laws/Solo.lean ====
section
/-! SUPPORT. The clock of a core whose only context at work holds issue: it is the issue step of that context's bundle. -/

namespace Sys2Proof.Machine

/-- The CTL word of the bundle that holds i alone. -/
def ctlOf (i : Instr) : Nat := match encodeBundle i with | some b => slotWord b 0 | none => 0

/-- A bundle made ready that holds i alone, whose operation is op. -/
abbrev oneOp (i : Instr) (slot : Nat) (op : SlotOp) : Prep := ⟨(encodeBundle i).getD 0, ctlOf i, 0, [(slot, 0, op)]⟩

theorem four_div_add_mod (g : Nat) : 4 * (g / 4) + g % 4 = g := by omega

theorem State.Alone.poll_self {s : State} {g : Nat} (h : s.Alone g) (look : Look) : poll look s g true = s := by
  have hu := h.unit
  unfold poll
  simp [h.notStopped, h.noTrap, h.notEnding, h.notCalled, Ctx.giving]

theorem State.Alone.poll_other {s : State} {g c : Nat} (h : s.Alone g) (look : Look) (hc : c < 4) (hn : c ≠ g % 4) (held : Bool) :
    poll look s (4 * (g / 4) + c) held = s := by
  have hu := h.alone c hc hn
  unfold poll
  simp [hu]

theorem State.Alone.polls {s : State} {g : Nat} (h : s.Alone g) (look : Look) :
    (List.range 4).foldl (fun s c =>
      poll look s (4 * (g / 4) + c) ((s.core (g / 4)).holder == some c && (s.core (g / 4)).passTo.isNone)) s = s := by
  have step : ∀ c, c < 4 → poll look s (4 * (g / 4) + c) ((s.core (g / 4)).holder == some c && (s.core (g / 4)).passTo.isNone) = s := by
    intro c hc
    by_cases hn : c = g % 4
    · have : ((s.core (g / 4)).holder == some c && (s.core (g / 4)).passTo.isNone) = true := by simp [h.holder, hn, h.noSwitch]
      rw [this, hn, four_div_add_mod]; exact h.poll_self look
    · exact h.poll_other look hc hn _
  have r : List.range 4 = [0, 1, 2, 3] := rfl
  rw [r]
  simp only [List.foldl_cons, List.foldl_nil, step 0 (by omega), step 1 (by omega), step 2 (by omega), step 3 (by omega)]

theorem State.Alone.noMapWrite {s : State} {g : Nat} (h : s.Alone g) : s.mapWrite (g / 4) = s := by
  unfold State.mapWrite
  split
  · rfl
  · rw [if_pos]
    simp only [List.any_eq_true, List.mem_range, Bool.or_eq_true]
    exact .inl ⟨g % 4, by omega, by rw [four_div_add_mod]; exact h.unit⟩

theorem State.Alone.notDue {s : State} {g : Nat} (h : s.Alone g) : landDue s g = s := by
  have : ((s.ctx g).flights.filter fun f => f.remain == 0) = [] := by
    simp only [List.filter_eq_nil_iff, beq_iff_eq]
    exact fun f hf => (h.landed f hf).1
  unfold landDue; simp [this]

/-- No port is taken by it. -/
theorem State.Alone.noPortsDue {s : State} {g : Nat} (h : s.Alone g) : portsDue s g = [] := by
  have : ((s.ctx g).flights.filter fun f => f.remain == 0) = [] := by
    simp only [List.filter_eq_nil_iff, beq_iff_eq]
    exact fun f hf => (h.landed f hf).1
  unfold portsDue; simp [this]

/-- No context but its own is ready beside a solo context. -/
theorem State.Alone.noneReady {s s' : State} {g : Nat} (h : s.Alone g) (hs : ∀ j, (s'.ctx j).unit = (s.ctx j).unit) (look : Look) :
    nextReady look s' (g / 4) (g % 4) = none := by
  have key : ∀ c, c < 4 → c ≠ g % 4 → ready look s' (4 * (g / 4) + c) = false := by
    intro c hc hn
    unfold ready
    simp [hs, h.alone c hc hn]
  unfold nextReady
  simp only [List.find?_map, Option.map_eq_none_iff, List.find?_eq_none, Function.comp_apply]
  intro d hd
  rw [key _ (by omega) (by simp at hd; omega)]
  simp

/-- A solo context's clock, once its bundle is fetched. -/
theorem coreClock_solo {s : State} {g : Nat} (h : s.Alone g) {look : Look} :
    coreClock look (g / 4) s =
      match look s g with
      | .error t => (s.unthaw (g / 4)).raise g t
      | .ok b =>
        match (if (s.core (g / 4)).thaw then none else stage3 s g b) with
        | some s' => waitStep look s' g b.tells
        | none =>
          if freezeOf s g b ≠ 0 ∧ !(s.core (g / 4)).thaw then
            s.updCore (g / 4) fun x => { x with frozen := freezeOf s g b - 1, thaw := true, fetched := b.raw, perfFreeze := x.perfFreeze + x.weight }
          else issueStep look s g b := by
  unfold coreClock
  simp only [h.whole, reduceCtorEq, if_false, h.still, h.noPorts, if_true, h.polls look, h.noMapWrite, false_and, h.notHalf,
    Bool.false_eq_true, h.noSwitch, Option.isSome_none, h.holder, four_div_add_mod, h.notFrozen, ne_eq, not_true_eq_false, Ctx.off,
    Ctx.giving, h.notStopped, h.notEnding, h.notCalled, Bool.false_and, Bool.or_false, h.noTrap, h.notDue, h.noPortsDue, State.takePorts]
  unfold holderStep
  simp only [h.noBubble, ne_eq, not_true_eq_false, if_false, h.noYield, Bool.false_and, Bool.false_eq_true] <;> rfl

/-- An issue step whose operations succeed outside a segment. -/
theorem issueStep_ok {s u : State} {g : Nat} {look : Look} {b : Prep} (hp : b.pop = 0)
    (hi : issueOps s g b.ctl (b.active s g) (s.updCtx g (Ctx.moveOn ((s.ctx g).waited || b.fences s g))) = .ok u)
    (hseg : (u.ctx g).seg = none) : issueStep look s g b = (u.endStep g (s.pc g)).after g b.tells := by
  have hseg2 : ∀ f : Ctx → Ctx, (∀ c, (f c).seg = c.seg) → ((u.updCtx g f).ctx g).seg = none := by
    intro f hf; rw [State.updCtx_ctx_self, hf, hseg]
  unfold issueStep
  simp only [hi, hp, if_true]
  have h1 : ∀ (v : State) (f : State → State), (v.ctx g).seg = none → (if (v.ctx g).seg.isNone = true then v else f v) = v := by
    intro v f hv; simp [hv]
  rw [h1 _ (fun v => (v.updCtx g _).updCtx g _)]
  · rfl
  · split
    · exact hseg
    · apply hseg2
      intro c; unfold Ctx.turn; split <;> rfl

/-- An issue step of which an operation fails. -/
theorem issueStep_error {s : State} {g : Nat} {look : Look} {b : Prep} {t : Trap}
    (hi : issueOps s g b.ctl (b.active s g) (s.updCtx g (Ctx.moveOn ((s.ctx g).waited || b.fences s g))) = .error t) :
    issueStep look s g b = s.fails g (t.tell b.tells) := by
  unfold issueStep
  simp only [hi]
  rfl

/-- A wait step of a solo context. -/
theorem waitStep_solo {s s' : State} {g : Nat} (h : s.Alone g) (hs : ∀ j, (s'.ctx j).unit = (s.ctx j).unit) (look : Look)
    (n : Nat) : waitStep look s' g n = s'.waits g n := by
  have hu : (s'.ctx g).unit.isNone = false := by rw [hs, Option.isNone_eq_false_iff]; exact h.unit
  have ho : ∀ v : State, (∀ j, (v.ctx j).unit = (s.ctx j).unit) → offer look v (g / 4) (g % 4) = v := by
    intro v hv; unfold offer; rw [h.noneReady hv look]
  have hw : ∀ j, (((s'.updCtx g fun c => { c.advance with
      waited := true, perfStall := c.perfStall + (s'.core (g / 4)).weight }).unthaw (g / 4)).ctx j).unit = (s.ctx j).unit := by
    intro j
    have hu : ∀ v : State, ((v.unthaw (g / 4)).ctx j).unit = (v.ctx j).unit := by intro v; unfold State.unthaw; split <;> simp
    rw [hu]
    by_cases hj : g = j
    · subst hj; rw [State.updCtx_ctx_self]; exact hs _
    · rw [State.updCtx_ctx_ne _ _ hj]; exact hs _
  unfold waitStep State.waits
  simp only [hu, Bool.false_eq_true, if_false]
  change (if _ then _ else if _ then offer look (State.unthaw _ _) _ _ else State.unthaw _ _) = _
  rw [ho _ hw, ite_self]

/-- The freeze of a bundle of one operation under p0 is that of the rows it reads (R20). -/
theorem freezeOf_single (s : State) (g raw ctl slot : Nat) (op : SlotOp) :
    freezeOf s g ⟨raw, ctl, 0, [(slot, 0, op)]⟩ =
      ((List.range 6).map fun bk => ((((op.reads (envOf s g slot ctl)).filter fun r => decide (r < 192)).eraseDups).filter
        fun r => bankOf r == bk).length).foldl max 0 - 1 := by
  simp [freezeOf, Prep.active, Regs.getP]

theorem foldl_max_le (l : List Nat) (a m : Nat) (ha : a ≤ m) (h : ∀ x ∈ l, x ≤ m) : l.foldl max a ≤ m := by
  induction l generalizing a with
  | nil => exact ha
  | cons x l ih => exact ih (max a x) (by have := h x (by simp); omega) fun y hy => h y (by simp [hy])

/-- No freeze where no bank is read twice. -/
theorem freezeOf_single_zero {s : State} {g raw ctl slot : Nat} {op : SlotOp}
    (h : ∀ b < 6, ((((op.reads (envOf s g slot ctl)).filter fun r => decide (r < 192)).eraseDups).filter fun r => bankOf r == b).length ≤ 1) :
    freezeOf s g ⟨raw, ctl, 0, [(slot, 0, op)]⟩ = 0 := by
  rw [freezeOf_single]
  have : ∀ l : List Nat, (∀ x ∈ l, x ≤ 1) → l.foldl max 0 - 1 = 0 := fun l hl => by
    have := foldl_max_le l 0 1 (by omega) hl; omega
  apply this
  intro x hx
  simp only [List.mem_map, List.mem_range] at hx
  obtain ⟨b, hb, rfl⟩ := hx
  exact h b hb

/-- Whether the operation, under a true guard, makes its bundle a fence (R84). -/
abbrev SlotOp.fences (op : SlotOp) : Bool := op.fence || op.fenceIf

theorem single_fences (s : State) (g raw ctl slot : Nat) (op : SlotOp) : (Prep.fences ⟨raw, ctl, 0, [(slot, 0, op)]⟩ s g) = op.fences := by
  simp [Prep.fences, Prep.active, Regs.getP]

/-- An instruction of a slot with its operation, as its meaning issues it. -/
theorem solo_look {s : State} {g : Nat} (h : s.Alone g) {i : Instr} {slot : Nat} {op : SlotOp} (hi : i.wellFormed = true) :
    fetchedLook (singlePrep i slot op (s.ctx g).regs.pc) s s.turn s g = .ok (oneOp i slot op) := by
  have hh : s.holderCtx s.turn = some g := by simp [State.holderCtx, h.turn, h.holder, four_div_add_mod]
  simp only [fetchedLook, hh, singlePrep, hi]
  cases h : encodeBundle i <;> simp [ctlOf, h]

theorem single_active (s : State) (g raw ctl slot : Nat) (op : SlotOp) : (Prep.active ⟨raw, ctl, 0, [(slot, 0, op)]⟩ s g) = [(slot, op)] := by
  simp [Prep.active, Regs.getP]

@[simp] theorem single_tells (raw ctl slot : Nat) (op : SlotOp) : Prep.tells ⟨raw, ctl, 0, [(slot, 0, op)]⟩ = op.tells := by simp [Prep.tells]

theorem issueSingle_clock {s : State} {g : Nat} (h : s.Alone g) (i : Instr) (slot : Nat) (op : SlotOp) :
    issueSingle i slot op s = .next (coreClock (fetchedLook (singlePrep i slot op (s.ctx g).regs.pc) s s.turn) (g / 4) s) := by
  have hh : s.holderCtx s.turn = some g := by simp [State.holderCtx, h.turn, h.holder, four_div_add_mod]
  unfold issueSingle
  rw [hh]
  simp only [h.turn]

/-- Its sources are ready once the queues it reads hold rows. -/
theorem single_ready {s : State} {g : Nat} (h : s.Alone g) {raw ctl slot : Nat} {op : SlotOp}
    (hq : ∀ q ∈ op.queues, Tab.get [] (s.core (g / 4)).queues q ≠ []) : sourcesReady s g ⟨raw, ctl, 0, [(slot, 0, op)]⟩ = true := by
  have hb : ∀ key, (s.ctx g).isBusy key = false := fun key => by simp [Ctx.isBusy, h.noneBusy, Tab.get]
  have hf : ((s.ctx g).flights.all fun f => !f.old) = true := by
    simp only [List.all_eq_true, Bool.not_eq_true']
    exact fun f hf => (h.landed f hf).2
  simp only [sourcesReady, single_active, hf, hb, Bool.true_and, Nat.zero_testBit, Bool.not_false, Bool.true_or]
  simp
  exact hq

theorem single_stage3 {s : State} {g : Nat} (h : s.Alone g) {raw ctl slot : Nat} {op : SlotOp}
    (hq : ∀ q ∈ op.queues, Tab.get [] (s.core (g / 4)).queues q ≠ []) :
    stage3 s g ⟨raw, ctl, 0, [(slot, 0, op)]⟩ = op.wait (envOf s g slot ctl) s := by
  simp only [stage3, single_ready h hq, if_true, single_active, opsWait]
  cases op.wait (envOf s g slot ctl) s <;> rfl

theorem single_ops {s t : State} {g : Nat} (h : s.Solo g) (ht : (t.ctx g).seg = none) (ctl slot : Nat) (op : SlotOp) :
    issueOps s g ctl [(slot, op)] t = op.issue (envOf s g slot ctl) t := by
  have hm : markTrap (envOf s g slot ctl) op = none := by
    simp [markTrap, Env.ctx, envOf, h.noMarks, Tab.get]
  have hlr : logRows t (envOf s g slot ctl) op = some t := by
    simp [logRows, envOf, ht]
  simp only [issueOps, hm, hlr]
  cases op.issue (envOf s g slot ctl) t <;> rfl

/-- One instruction, alone in its bundle, issued by a solo context. -/
theorem issueSingle_runs {s : State} {g : Nat} (h : s.Solo g) {i : Instr} {slot : Nat} {op : SlotOp} {effect : State → State}
    (hi : i.wellFormed = true)
    (hq : ∀ q ∈ op.queues, Tab.get [] (s.core (g / 4)).queues q ≠ [])
    (hw : op.wait (envOf s g slot (ctlOf i)) s = none)
    (hf : (s.core (g / 4)).thaw = true ∨ ∀ b < 6, ((((op.reads (envOf s g slot (ctlOf i))).filter fun r => decide (r < 192)).eraseDups).filter
      fun r => bankOf r == b).length ≤ 1)
    (hs : ∀ f, op.issue (envOf s g slot (ctlOf i)) (s.updCtx g (Ctx.moveOn f)) = .ok (effect (s.updCtx g (Ctx.moveOn f))))
    (hseg : ∀ f, ((effect (s.updCtx g (Ctx.moveOn f))).ctx g).seg = none) :
    issueSingle i slot op s = .next (s.issue g effect op.fences op.tells) := by
  have hfz : ¬ (freezeOf s g (oneOp i slot op) ≠ 0 ∧ (!(s.core (g / 4)).thaw) = true) := by
    rcases hf with hf | hf
    · simp [hf]
    · simp [freezeOf_single_zero hf]
  have hopen : ∀ f, ((s.updCtx g (Ctx.moveOn f)).ctx g).seg = none := fun f => by rw [State.updCtx_ctx_self]; exact h.noSeg
  rw [issueSingle_clock h.toAlone, coreClock_solo h.toAlone, solo_look h.toAlone hi]
  simp only [single_stage3 h.toAlone hq, hw, ite_self]
  rw [if_neg hfz, issueStep_ok (u := effect (s.updCtx g (Ctx.moveOn ((s.ctx g).waited || op.fences)))) rfl]
  · rw [single_tells]; rfl
  · simp only [single_active, single_fences]
    rw [single_ops h (hopen _), hs _]
  · exact hseg _

/-- One instruction, alone in its bundle, that fails at issue. -/
theorem issueSingle_fails {s : State} {g : Nat} (h : s.Solo g) {i : Instr} {slot : Nat} {op : SlotOp} {t : Trap}
    (hi : i.wellFormed = true)
    (hq : ∀ q ∈ op.queues, Tab.get [] (s.core (g / 4)).queues q ≠ [])
    (hw : op.wait (envOf s g slot (ctlOf i)) s = none)
    (hf : (s.core (g / 4)).thaw = true ∨ ∀ b < 6, ((((op.reads (envOf s g slot (ctlOf i))).filter fun r => decide (r < 192)).eraseDups).filter
      fun r => bankOf r == b).length ≤ 1)
    (hs : ∀ f, op.issue (envOf s g slot (ctlOf i)) (s.updCtx g (Ctx.moveOn f)) = .error t) :
    issueSingle i slot op s = .next (s.fails g (t.tell op.tells)) := by
  have hfz : ¬ (freezeOf s g (oneOp i slot op) ≠ 0 ∧ (!(s.core (g / 4)).thaw) = true) := by
    rcases hf with hf | hf
    · simp [hf]
    · simp [freezeOf_single_zero hf]
  have hopen : ∀ f, ((s.updCtx g (Ctx.moveOn f)).ctx g).seg = none := fun f => by rw [State.updCtx_ctx_self]; exact h.noSeg
  rw [issueSingle_clock h.toAlone, coreClock_solo h.toAlone, solo_look h.toAlone hi]
  simp only [single_stage3 h.toAlone hq, hw, ite_self]
  rw [if_neg hfz, issueStep_error (t := t), single_tells]
  rw [single_active, single_ops h (hopen _), hs _]

/-- One instruction, alone in its bundle, that waits. -/
theorem issueSingle_waits {s s' : State} {g : Nat} (h : s.Alone g) {i : Instr} {slot : Nat} {op : SlotOp}
    (hi : i.wellFormed = true)
    (hq : ∀ q ∈ op.queues, Tab.get [] (s.core (g / 4)).queues q ≠ [])
    (hw : op.wait (envOf s g slot (ctlOf i)) s = some s') (ht : (s.core (g / 4)).thaw = false) (hs : ∀ j, (s'.ctx j).unit = (s.ctx j).unit) :
    issueSingle i slot op s = .next (s'.waits g op.tells) := by
  rw [issueSingle_clock h, coreClock_solo h, solo_look h hi]
  simp only [single_stage3 h hq, hw, ht, Bool.false_eq_true, if_false]
  rw [waitStep_solo h hs, single_tells]

/-- Such an operation that reads no row, names no queue and does not wait. -/
theorem State.Solo.runs {s : State} {g : Nat} (h : s.Solo g) {i : Instr} {op : SlotOp} {slot : Nat} {f : State → State}
    (hi : i.wellFormed = true) (hq : op.queues = []) (hw : op.wait (envOf s g slot (ctlOf i)) s = none)
    (hr : ∀ r ∈ op.reads (envOf s g slot (ctlOf i)), 192 ≤ r)
    (hs : ∀ b, op.issue (envOf s g slot (ctlOf i)) (s.updCtx g (Ctx.moveOn b)) = .ok (f (s.updCtx g (Ctx.moveOn b))))
    (hseg : ∀ b, ((f (s.updCtx g (Ctx.moveOn b))).ctx g).seg = ((s.updCtx g (Ctx.moveOn b)).ctx g).seg) :
    issueSingle i slot op s = .next (s.issue g f op.fences op.tells) := by
  refine issueSingle_runs h hi (by simp [hq]) hw (.inr ?_) hs (fun b => by rw [hseg, State.updCtx_ctx_self]; exact h.noSeg)
  have : (op.reads (envOf s g slot (ctlOf i))).filter (fun r => decide (r < 192)) = [] := by
    simp only [List.filter_eq_nil_iff, decide_eq_true_eq]
    intro r hr'; have := hr r hr'; omega
  intro b hb
  simp [this]

/-- One that reads no row and names no queue, and fails. -/
theorem State.Solo.traps {s : State} {g : Nat} (h : s.Solo g) {i : Instr} {op : SlotOp} {slot : Nat} {x : Trap}
    (hi : i.wellFormed = true) (hq : op.queues = []) (hw : op.wait (envOf s g slot (ctlOf i)) s = none)
    (hr : ∀ r ∈ op.reads (envOf s g slot (ctlOf i)), 192 ≤ r)
    (hs : ∀ b, op.issue (envOf s g slot (ctlOf i)) (s.updCtx g (Ctx.moveOn b)) = .error x) :
    issueSingle i slot op s = .next (s.fails g (x.tell op.tells)) := by
  refine issueSingle_fails h hi (by simp [hq]) hw (.inr ?_) hs
  have : (op.reads (envOf s g slot (ctlOf i))).filter (fun r => decide (r < 192)) = [] := by
    simp only [List.filter_eq_nil_iff, decide_eq_true_eq]
    intro r hr'; have := hr r hr'; omega
  intro b hb
  simp [this]

@[simp] theorem State.fly_seg (t : State) (g : Nat) (f : Flight) : ((t.fly g f).ctx g).seg = (t.ctx g).seg := by simp [State.fly]
@[simp] theorem State.jumps_seg (t : State) (g : Nat) (w : Word) (p : Bool) : ((State.jumps g w p t).ctx g).seg = (t.ctx g).seg := by
  simp [State.jumps]
@[simp] theorem State.acquire_ctx (t : State) (k sc j : Nat) : (t.acquire k sc).ctx j = t.ctx j := by unfold State.acquire; split <;> rfl

/-- What a slot reads is what the state holds, whatever its bundle's control word. -/
@[simp] theorem envOf_S (s : State) (g slot ctl : Nat) (i : BitVec 6) : (envOf s g slot ctl).S i = s.S g i := rfl
@[simp] theorem envOf_p (s : State) (g slot ctl : Nat) : (envOf s g slot ctl).p = s.partG g := rfl
@[simp] theorem envOf_pc (s : State) (g slot ctl : Nat) : (envOf s g slot ctl).pc = s.pc g := rfl
@[simp] theorem envOf_regs (s : State) (g slot ctl : Nat) : (envOf s g slot ctl).regs = (s.ctx g).regs := rfl
@[simp] theorem envOf_ctx (s : State) (g slot ctl : Nat) : (envOf s g slot ctl).ctx = s.ctx g := rfl
@[simp] theorem envOf_core (s : State) (g slot ctl : Nat) : (envOf s g slot ctl).core = s.core (g / 4) := rfl
@[simp] theorem envOf_pre (s : State) (g slot ctl : Nat) : (envOf s g slot ctl).pre = s := rfl
@[simp] theorem envOf_g (s : State) (g slot ctl : Nat) : (envOf s g slot ctl).g = g := rfl
@[simp] theorem envOf_k (s : State) (g slot ctl : Nat) : (envOf s g slot ctl).k = g / 4 := rfl
@[simp] theorem envOf_c (s : State) (g slot ctl : Nat) : (envOf s g slot ctl).c = g % 4 := rfl
@[simp] theorem envOf_src (s : State) (g slot ctl pos : Nat) (c : BitVec 6) : (envOf s g slot ctl).src pos c = s.src g slot pos c := rfl
@[simp] theorem envOf_trap (s : State) (g slot ctl : Nat) (c : TrapCode) (a : Word) : (envOf s g slot ctl).trap c a = (s.env g slot).trap c a := rfl

/-- A form that decode refuses traps (R12). -/
theorem issueSingle_illegal {s : State} {g : Nat} (h : s.Alone g) {i : Instr} {slot : Nat} {op : SlotOp} (hi : i.wellFormed = false) :
    issueSingle i slot op s = .next (s.fails g (decodeTrap (s.pc g) slot .illegalOperand)) := by
  have hh : s.holderCtx s.turn = some g := by simp [State.holderCtx, h.turn, h.holder, four_div_add_mod]
  have hl : fetchedLook (singlePrep i slot op (s.ctx g).regs.pc) s s.turn s g = .error (decodeTrap (s.pc g) slot .illegalOperand) := by
    simp [fetchedLook, hh, singlePrep, hi, State.pc]
  rw [issueSingle_clock h, coreClock_solo h, hl]
  rfl

end Sys2Proof.Machine
end

