-- ==== Sys2Proof/Tests/Slice0.lean ====
section
/-! SUPPORT. Tests of the model's author: ill-formed terms, words of every slot, states that meet the hypotheses of the statements, small
steps. Expected values come from the spec's tables and rules. -/

set_option Elab.async false

namespace Sys2Proof.Tests
open Sys2Proof Sys2Proof.Machine

/-! ### Ill-formed terms (R12): one for each check of `legal` -/

/-- Every term of a list is refused by WellFormed, and has no encoding that decodes back. -/
def refused (l : List Instr) : Bool := l.all fun i => !i.wellFormed

theorem test_ill_scalar : refused [.loop 3 0, .cmp 0 .eq 1 2, .cmp 1 .un 1 2, .cmpi 1 .ord 1 2, .fcmp 0 .eq 1 2, .fcmp 1 .bits 1 2,
    .pand 0 1 2, .por 0 1 2, .pxor 0 1 2, .mfc 1 0x009, .mtc 0x0FF 1] = true := by decide
theorem test_ill_vector : refused [.vadd .va .fp32 false 40 0 0, .vadd .va .fp32 false 0 58 0, .vsel .vb .i8 true 0 0 62, .vabs .va .n32 false 0 0,
    .vneg .va .n8 false 0 0, .vshl .va .fp32 false 0 0 0, .vsra .va .n32 false 0 0 0, .vexp2 .va .i32 false 0 0, .vcvt .va .i32 false 0 0 .i32 false,
    .vcvt .va .i32 false 0 0 .fp32 true, .vbcast .va .i32 false 52 0 0, .vbcs .va .i32 false 47 0, .vdot4 .va .i32 false 0 0 0,
    .viota .va .bf16 false 0 0, .vmskp .va .i32 0 0, .vmskc .va .i32 0 58, .vmovs .va .i32 0 62 0, .vshuf .va .i32 false 0 0 6,
    .vshuf .va .i32 false 0 0 44, .vins .va .i32 false 63 0 0] = true := by decide
theorem test_ill_memory : refused [.ldl 40 0 0, .ldlx 57 0 0, .ldg 45 0 .si 0, .stl 63 0 0, .stg 58 0 .wt 0, .atom .fadd true .si 1 2,
    .atoml .cas false 63 2] = true := by decide
theorem test_ill_transform : refused [.xcvt .mxfp4 .fp32 false false 0 0, .xcvt .fp32 .sx7 false false 0 0, .xcvt .i8 .i8 false false 0 0,
    .xcvt .e4m3 .fp32 false true 0 0, .xqnt .fp32 false 0 false 0 0, .xqnt .sx4 false 1 false 0 0, .xdeq .bf16 false 0 0 0, .xdeq .mxfp4 false 2 0 0,
    .xtrn 3 0 0, .xexp 0 52 0, .xcmp 0 0 62, .xscl 0 58, .xstat false 45, .xpack .fp32 0 0, .xunpk .sx2 0 0] = true := by decide
theorem test_ill_array : refused [.mma 5 0 0 .madd 1 false false, .mmap 11 0 0 1 false false, .mzero 12 0, .mdrain 4 .fp32 0 2 0 false false,
    .mboomRmax 5 0 1, .mboomNorm 15 0, .attn 3 0 0 0, .acarryExp 12 false 0 0, .acarryExp 0 false 0 40, .acarryImp 0 false 0 63,
    .mstat 0 10] = true := by decide
theorem test_ill_engine : refused [.signal 1 2 0, .signal 1 2 7, .bar 0 0, .bar 5 0, .bar 6 0, .take 1 2 0, .kvsync 0, .kvsync 5, .kvrsv 1 0,
    .syscUnknownService 1 0x020] = true := by decide

/-! ### Words of every slot, written out from R22 to R34 -/

theorem test_word_ctl : (decodeCop 0x00127FFB).toOption = some (some (.brc 4 (-5))) ∧ (decodeCop 0x00412008).toOption = some (some (.loop 9 8)) ∧
    (decodeCop 0x00680000).toOption = some (some .eret) ∧ (decodeCop 0x00700000).toOption = some (some (.segb 0)) ∧ (decodeCop 0x00780000).toOption = some (some .sege) := by decide
theorem test_word_sca : (decodeSlot 1 0x07C51234).toOption = some (some (0, .li 5 0x1234)) ∧ (decodeSlot 1 0x08055678).toOption = some (some (0, .lis 5 0x5678)) ∧
    (decodeSlot 1 0x08D1060A).toOption = some (some (0, .cmpi 2 .lt 3 10)) := by decide
theorem test_word_vec : (decodeSlot 2 0x0100020C).toOption = some (some (0, .vfma .va .fp32 false 0 8 12)) := by decide
theorem test_word_mem : (decodeSlot 4 0x40540801).toOption = some (some (4, .ldl 20 2 1)) ∧ (decodeSlot 4 0x03C10004).toOption = some (some (0, .fenceAcq 4)) := by decide
theorem test_word_arr : (decodeSlot 5 0x01400010).toOption = some (some (0, .mzero 0 1)) := by decide
theorem test_word_xf : (decodeSlot 6 0x01480207).toOption = some (some (0, .xexp 2 8 7)) := by decide
theorem test_word_eng : (decodeSlot 7 0x00430002).toOption = some (some (0, .copy 3 2)) ∧ (decodeSlot 7 0x064C0003).toOption = some (some (0, .kvrsv 12 3)) := by decide

/-! ### A core at work: context 0 of core 0 -/

/-- What `State.Alone` asks, as a test that can be run. -/
def aloneCheck (s : State) (g : Nat) : Bool :=
  let x := s.core (g / 4)
  let c := s.ctx g
  decide (s.turn = g / 4) && decide (x.holder = some (g % 4)) && x.passTo.isNone && decide (x.frozen = 0) && !x.half && decide (x.health = .whole) &&
  decide (x.moving = 0) && decide (x.ports = []) && c.unit.isSome && !c.stopped && !c.ending && !c.preempt && c.pend.isNone && decide (c.bubble = 0) && !c.yielding &&
  (c.flights.all fun f => decide (f.remain ≠ 0) && !f.old) && c.busy.isEmpty && c.marks.isEmpty &&
  (List.range 4).all fun d => decide (d = g % 4) || decide ((s.ctx (4 * (g / 4) + d)).unit = none)

theorem alone_of_check {s : State} {g : Nat} (h : aloneCheck s g = true) : s.Alone g := by
  simp only [aloneCheck, Bool.and_eq_true, decide_eq_true_eq, Bool.not_eq_true', Option.isNone_iff_eq_none, List.all_eq_true,
    List.isEmpty_iff, List.mem_range, Bool.or_eq_true] at h
  obtain ⟨⟨⟨⟨⟨⟨⟨⟨⟨⟨⟨⟨⟨⟨⟨⟨⟨⟨h1, h2⟩, h3⟩, h4⟩, h5⟩, h6⟩, h7⟩, h8⟩, h9⟩, h10⟩, h11⟩, h12⟩, h13⟩, h14⟩, h15⟩, h16⟩, h17⟩, h18⟩, h19⟩ := h
  exact ⟨h1, h2, h3, h4, h5, h6, h7, h8, h9, h10, h11, h12, h13, h14, h15, h16, h17, h18, fun c hc hn => (h19 c hc).resolve_left hn⟩

theorem solo_of_check {s : State} {g : Nat} (h : (aloneCheck s g && (s.ctx g).seg.isNone && !(s.ctx g).regs.inSeg) = true) : s.Solo g := by
  simp only [Bool.and_eq_true, Option.isNone_iff_eq_none, Bool.not_eq_true'] at h
  exact ⟨alone_of_check h.1.1, h.1.2, h.2⟩

/-- A unit on context 0, which holds issue of core 0, its scratchpad all of the SRAM, one page of text and data, partition 0 open. -/
def ctx0 : Ctx := { Ctx.reset with unit := some ⟨0, 0, 0, false⟩ }
def core0 : Core := { Core.reset with holder := some 0, split := 8 }
def page0 : PageMap := { frame := 0, mtype := .hbm, r := true, w := true, x := true, a := true, cacheable := true, gate := 0 }
def part0 : Part := { Part.reset with pages := [(0, some page0)] }
/-- The launch of its unit. -/
def pl : Launch := placedLaunch 0
def made (c : Ctx) (x : Core) (p : Part) : State :=
  { State.reset with
    boot := 0xFF, powered := true, ctxs := [(0, c)], cores := [(0, x)], parts := [(0, p)], launches := [pl], nextLaunch := 1
    shrouds := [(0, some { Shroud.reset 0 with state := .ready, gateClosed := false })] }
def solo : State := made ctx0 core0 part0
/-- The same with scalars set. -/
def regsS (l : List (Nat × Word)) : Ctx := { ctx0 with regs := { ctx0.regs with s := l } }
def soloS (l : List (Nat × Word)) : State := made (regsS l) core0 part0

theorem test_solo : solo.Solo 0 := solo_of_check (by decide)

/-! ### States that meet the hypotheses of the statements

One theorem for each statement that has hypotheses; a theorem with several parts has one for each clause, at a boundary where the
clause has a range. -/

theorem ok_of {α β : Type} {e : Except α β} {b : β} (h : e.toOption = some b) : e = .ok b := by
  cases e with
  | ok c => simpa [Except.toOption] using h
  | error _ => simp [Except.toOption] at h

theorem sources_of {s : State} {g slot : Nat} {codes : List (BitVec 6)} {rows : List Row} (h1 : s.srcsFrom g slot 0 codes rows)
    (h2 : s.portsFree g codes) (h3 : ∀ q ∈ queueCodes codes, Tab.get [] (s.core (g / 4)).queues q ≠ []) :
    s.Sources g slot codes rows := ⟨h1, h2, h3⟩

/-- Rows 8 and 12 and the scalars that the witnesses name. -/
def ctxW : Ctx := { regsS [(1, 33), (2, 0x12345678), (3, 64), (4, 0x10000), (5, 1)] with v := [(8, 5), (12, 7), (21, 1)] }
def work : State := made ctxW core0 part0
def workR (f : Regs → Regs) : State := made { ctxW with regs := f ctxW.regs } core0 part0

theorem test_work : work.Solo 0 := solo_of_check (by decide)
theorem work_src1 (slot : Nat) (h : slot = 2 ∨ slot = 3 ∨ slot = 4 ∨ slot = 5 ∨ slot = 6) : work.Sources 0 slot [8] [5] := by
  rcases h with rfl | rfl | rfl | rfl | rfl <;> exact sources_of ⟨ok_of (by decide +kernel), rfl⟩ (Or.inr (by decide +kernel)) (by decide)
theorem work_src2 (slot : Nat) (h : slot = 2 ∨ slot = 3) : work.Sources 0 slot [8, 12] [5, 7] := by
  rcases h with rfl | rfl <;> exact sources_of ⟨ok_of (by decide +kernel), ok_of (by decide +kernel), rfl⟩ (Or.inr (by decide +kernel)) (by decide)
theorem work_src3 (slot : Nat) (h : slot = 2 ∨ slot = 3) : work.Sources 0 slot [8, 12, 21] [5, 7, 1] := by
  rcases h with rfl | rfl <;>
    exact sources_of ⟨ok_of (by decide +kernel), ok_of (by decide +kernel), ok_of (by decide +kernel), rfl⟩ (Or.inr (by decide +kernel)) (by decide)

/-- An ADD in slot 1, alone in its bundle, at the pc of context 0 and decoded there. -/
theorem witness_StepRunsTheDecodedInstruction : let s := State.reset.place0 256 (0x00430420 * 2 ^ 32)
    s.agenda = [] ∧ s.phase = .clock ∧ s.turn < 32 ∧ (s.core 0).holder = some 0 ∧ (s.resolve 0 (s.pc 0) 32 .fetch).toOption = some 0 ∧
    decodeTableWord 256 (s.homeN 0 32) = some (.add 3 1 2) ∧ (encode (.add 3 1 2)).isSome = true := by decide +kernel
theorem witness_StepRunsTheAgenda : ({ solo with agenda := [.timebaseTick] } : State).agenda = [.timebaseTick] := rfl
/-- A pc no page maps; an opcode the slot has not; two slots with no effect whose guard is p1; a bundle that may issue, frozen or not. -/
theorem witness_BundlesIssueAsOne :
    (workR fun r => { r with pc := 0x10000 }).Solo 0 ∧
    ((workR fun r => { r with pc := 0x10000 }).resolve 0 0x10000 32 .fetch).toOption = none ∧
    (State.reset.place0 256 (0x0FC00000 * 2 ^ 32)).Solo 0 ∧
    ((decodeBundle (0x0FC00000 * 2 ^ 32)).toOption.isNone = true) ∧
    (State.reset.place0 256 (0x10430420 * 2 ^ 32)).P 0 1 = false ∧
    (∃ b, decodeBundle (0x10430420 * 2 ^ 32) = .ok b ∧ b.pop = 0 ∧ b.ops.length = 1 ∧
      stage3 (State.reset.place0 256 (0x00430420 * 2 ^ 32)) 0 (prepOf (0x00430420 * 2 ^ 32) b) = none ∧
      freezeOf (State.reset.place0 256 (0x00430420 * 2 ^ 32)) 0 (prepOf (0x00430420 * 2 ^ 32) b) = 0) :=
  ⟨solo_of_check (by decide), by decide +kernel, solo_of_check (by decide), by decide +kernel, by decide +kernel,
    ⟨0, 0, [(1, 1, .add 3 1 2)]⟩, ok_of (by decide +kernel), rfl, rfl, by decide +kernel, by decide +kernel⟩

/-- Context 0 at work with the bundle n at its pc, on a core as given. -/
def bundled (n : Nat) (x : Core) : State := { made ctxW x part0 with mem := Mem.writeN [] 0 32 n }
def bOf (n : Nat) : Bundle := (decodeBundle n).toOption.getD ⟨0, 0, []⟩
/-- An ADD that pops queue 0, under p0 or p1; a VADD of rows 8 and 20, which lie in one bank; an ERET outside the handler. -/
def popW (p : Nat) : Nat := 2 ^ 28 + (p * 2 ^ 28 + 0x00430420) * 2 ^ 32
def clashW : Nat := (encodeBundle (.vadd .va .fp32 false 0 8 20)).getD 0
def trapW : Nat := 0x00680000
/-- Queue 0 empty or with a row; a freeze, or the bundle fetched before one that is over; a slot that fails its trap at issue. -/
theorem witness_BundlesIssueAsOne_more : let q : Core := { core0 with queues := [(0, [7, 8])] }
    let f : Core := { core0 with thaw := true, fetched := popW 0 };
    (∀ n ∈ [popW 0, popW 1, clashW, trapW], (decodeBundle n).toOption = some (bOf n)) ∧ (bOf (popW 0)).pop = 1 ∧ (bOf (popW 1)).pop = 1 ∧
    ((bundled (popW 0) core0).resolve 0 0 32 .fetch).toOption = some 0 ∧ (bundled (popW 0) core0).homeN 0 32 = popW 0 ∧
    aloneCheck (bundled (popW 0) core0) 0 = true ∧ Tab.get [] core0.queues 0 = [] ∧ core0.thaw = false ∧
    aloneCheck (bundled (popW 1) q) 0 = true ∧ ((bundled (popW 1) q).core 0).queues = [(0, [7, 8])] ∧ (bundled (popW 1) q).P 0 1 = false ∧
    aloneCheck (bundled 0 f) 0 = true ∧ ((bundled 0 f).core 0).thaw = true ∧ ((bundled 0 f).core 0).fetched = popW 0 ∧
    aloneCheck (bundled clashW core0) 0 = true ∧ (stage3 (bundled clashW core0) 0 (prepOf clashW (bOf clashW))).isNone = true ∧
    freezeOf (bundled clashW core0) 0 (prepOf clashW (bOf clashW)) = 1 ∧
    aloneCheck (bundled trapW core0) 0 = true ∧ (stage3 (bundled trapW core0) 0 (prepOf trapW (bOf trapW))).isNone = true ∧
    (issueOps (bundled trapW core0) 0 trapW ((prepOf trapW (bOf trapW)).active (bundled trapW core0) 0) (bundled trapW core0)).toOption.isNone = true ∧
    (issueOps (bundled (popW 0) q) 0 (2 ^ 28) ((prepOf (popW 0) (bOf (popW 0))).active (bundled (popW 0) q) 0) (bundled (popW 0) q)).toOption.isSome = true := by
  decide +kernel

theorem witness_ScalarRegisterForms_DivisionNeverTraps_ScalarImmediateForms : ∃ s g, State.Solo s g := ⟨work, 0, test_work⟩
theorem witness_ComparesAndPredicates : work.Solo 0 ∧ (1 : BitVec 3) ≠ 0 ∧ (7 : BitVec 3) ≠ 0 ∧ Cond.intOk .nbits = true ∧ Cond.intOk .eq = true :=
  ⟨test_work, by decide⟩
/-- trap.epc may be read and written; chip.id's kind of register may not be written; s1 is no multiple of 32. -/
theorem witness_RegisterMoves : work.Solo 0 ∧ crOk 0x011 = true ∧ crOk 0x000 = true ∧ (mtcCheck (work.env 0 1) 0x011 (work.S 0 3)).isNone = true ∧
    crWritable 0x000 = false ∧ (work.S 0 1).toNat % 32 ≠ 0 := ⟨test_work, by decide +kernel⟩
theorem witness_ScalarFloat : work.Solo 0 ∧ (7 : BitVec 3) ≠ 0 ∧ Cond.floatOk .ord = true := ⟨test_work, by decide⟩

/-- bt1 and bt7 at a multiple of 32, or one past it. -/
def branchy (a : Word) : State := workR fun r => ((r.setBt 1 a).setBt 7 a).setPair 2 true
theorem witness_BranchesTaken : (branchy 64).Solo 0 ∧ (branchy 65).Solo 0 ∧ ((branchy 64).ctx 0).regs.getBt 1 = 64 ∧
    ((branchy 65).ctx 0).regs.getBt 1 = 65 ∧ ((branchy 64).ctx 0).regs.getBt 7 = 64 ∧ ((branchy 65).ctx 0).regs.getBt 7 = 65 :=
  ⟨solo_of_check (by decide), solo_of_check (by decide), by decide⟩
/-- p1 is false, p4 true: the first, second, third, fourth test is the first true one, or none is. -/
theorem witness_BranchManyPicksFirstTrue : (branchy 64).Solo 0 ∧ (branchy 64).P 0 4 = true ∧ (branchy 64).P 0 1 = false ∧
    (((branchy 64).ctx 0).regs.getBt 1).toNat % 32 = 0 ∧ (((branchy 65).ctx 0).regs.getBt 1).toNat % 32 ≠ 0 :=
  ⟨solo_of_check (by decide), by decide⟩
/-- Loops active: none, one that ends at the pc, one with a body too small for another of two bundles, one that holds it, two. -/
def looped (l : List Loop) : State := workR fun r => { r with loops := l }
theorem witness_Loops : work.Solo 0 ∧ work.S 0 5 ≠ 0 ∧ work.S 0 6 = 0 ∧ (looped [⟨0, 0, 3⟩]).Solo 0 ∧ (looped [⟨0, 0, 3⟩]).pc 0 = 0 ∧
    (looped [⟨0, 32, 3⟩]).Solo 0 ∧ ¬((0 + BitVec.ofNat 64 (32 * (2 : BitVec 13).toNat) : Word).toNat ≤ (32 : Word).toNat) ∧
    (looped [⟨0, 64, 3⟩]).Solo 0 ∧ ((0 + BitVec.ofNat 64 (32 * (2 : BitVec 13).toNat) : Word).toNat ≤ (64 : Word).toNat) ∧
    (looped [⟨0, 640, 3⟩, ⟨0, 320, 2⟩]).Solo 0 :=
  ⟨test_work, by decide, by decide, solo_of_check (by decide), by decide, solo_of_check (by decide), by decide, solo_of_check (by decide), by decide,
    solo_of_check (by decide)⟩

/-- Context 0 with s1 = 0x2000, a mapped word whose home holds `w`; s2 = 5. -/
def wordAt (w : Nat) : State := { soloS [(1, 0x2000), (2, 5)] with mem := Mem.writeN solo.mem 0x2000 8 w }
theorem witness_Waits_word : (wordAt 5).Solo 0 ∧ (wordAt 4).Solo 0 ∧ (wordAt 0).reaches 0 ((wordAt 0).S 0 1) 8 .read 0x2000 ∧
    ((wordAt 5).S 0 2).toNat ≤ ((wordAt 5).word64 0x2000).toNat ∧ ((wordAt 4).word64 0x2000).toNat < ((wordAt 4).S 0 2).toNat ∧
    (wordAt 5).drained 0 6 ∧ (wordAt 5).homeClear 0 0x2000 = true ∧ (∃ w, coFinal ((wordAt w).word64 0x2000) = true ∧ (wordAt w).Solo 0) ∧ coFinal ((wordAt 1).word64 0x2000) = false :=
  ⟨solo_of_check (by decide), solo_of_check (by decide), ok_of (by decide +kernel), by decide +kernel, by decide +kernel,
    fun _ => by decide, by decide +kernel, ⟨2, by decide +kernel, solo_of_check (by decide)⟩, by decide +kernel⟩
/-- A write of the context to that line is on its way. -/
def behind : State := { wordAt 5 with reqs := [{ id := 0, g := 0, kind := .write, line := 64, words := 3, data := [(0x2000, 9)] }] }
theorem witness_Waits_behind : behind.Solo 0 ∧ behind.reaches 0 (behind.S 0 1) 8 .read 0x2000 ∧ behind.homeClear 0 0x2000 = false :=
  ⟨solo_of_check (by decide), ok_of (by decide +kernel), by decide +kernel⟩
/-- Channel 5 with a write pointer of 0x12345678 or 4, started; time 5 or 4; banks, tiles, queues of bit 1 free or not. -/
def waiting : State :=
  { made (regsS [(1, 5), (2, 5), (3, 2)]) { core0 with chans := [(5, ⟨none, [], 5, none⟩)], queues := [(1, [1])] } part0 with timebase := 5 }
def stalled : State :=
  { made (regsS [(1, 5), (2, 5), (3, 2)]) { core0 with
      chans := [(5, ⟨none, [], 4, none⟩)], banks := [(1, some (7, 3))], halyard := [{ id := 0, c := 0, op := 5, tile := 1, cnt := 1 }] } part0 with timebase := 4 }
theorem witness_Waits : waiting.Solo 0 ∧ stalled.Solo 0 ∧ waiting.chanStarted 0 5 = true ∧ stalled.chanStarted 0 5 = true ∧
    (waiting.S 0 1).toNat ≤ 15 ∧ (waiting.S 0 2).toNat ≤ (Tab.get Chan.idle (waiting.core 0).chans 5).wp.toNat ∧
    (Tab.get Chan.idle (stalled.core 0).chans 5).wp.toNat < (stalled.S 0 2).toNat ∧
    (waiting.S 0 1).toNat ≤ waiting.timebase.toNat ∧ stalled.timebase.toNat < (stalled.S 0 1).toNat ∧
    Tab.get none (waiting.core 0).banks 1 = none ∧ Tab.get none (stalled.core 0).banks 1 = some (7, 3) ∧ (stalled.ctx 0).launch ≠ some 7 ∧
    (waiting.core 0).tileBusy 1 = false ∧ (stalled.core 0).tileBusy 1 = true ∧
    Tab.get [] (waiting.core 0).queues 1 ≠ [] ∧ Tab.get [] (stalled.core 0).queues 1 = [] ∧ ∀ i < 64, (2 : Nat).testBit i = true → i = 1 :=
  ⟨solo_of_check (by decide), solo_of_check (by decide), by decide +kernel⟩
/-- A unit whose gang has another on core 1, in a run of a segment. -/
def seg0 (run : Nat) : Seg :=
  { run := run, check := Regs.reset, base := 0, loop0 := 0, loop1 := 0, signature := 0, segbPc := 0, depth0 := 0 }
def ganged (run : Nat) : State := { work with ctxs := [(0, ctxW), (4, { ctx0 with seg := some (seg0 run) })] }
/-- A result of the context is in flight, or an entry of it waits in its core's array queue. -/
def flown : State := made { ctxW with flights := [{ kind := 3, remain := 5, dest := 1, slot := 1, value := 9 }] } core0 part0
def queued : State := made ctxW { core0 with halyard := [{ id := 0, c := 0, op := 5, tile := 1, cnt := 1 }] } part0
theorem witness_Waits_more : (work.core 0).thaw = false ∧ 15 < (work.S 0 1).toNat ∧ { work with cores := [(0, { core0 with engq := [{ op := 1, g := 0, imm := 15 }] })] : State }.chanStarted 0 15 = false ∧ (waiting.core 0).thaw = false ∧
    (behind.core 0).thaw = false := by decide +kernel
theorem witness_YieldDoneRdvPhase_waits : flown.Solo 0 ∧ (flown.ctx 0).flights ≠ [] ∧ queued.Solo 0 ∧ (∃ h ∈ (queued.core 0).halyard, h.c = 0) ∧
    ((ganged 2).core 0).thaw = false := ⟨solo_of_check (by decide), by decide, solo_of_check (by decide), by decide, by decide⟩
theorem witness_YieldDoneRdvPhase : work.Solo 0 ∧ (work.ctx 0).flights = [] ∧ (work.core 0).halyard = [] ∧ work.doneReady 0 = true ∧ work.gangOn 0 2 = [0] ∧
    (ganged 1).Solo 0 ∧ (ganged 1).gangOn 0 2 = [0, 4] ∧ ((ganged 1).ctx 4).seg = some (seg0 1) ∧
    (ganged 2).Solo 0 ∧ (ganged 2).gangOn 0 2 = [0, 4] ∧ ((ganged 2).ctx 4).seg = some (seg0 2) ∧
    work.released 0 6 = true ∧ work.drained 0 6 :=
  ⟨test_work, by decide, by decide, by decide +kernel, by decide +kernel, solo_of_check (by decide), by decide +kernel, by decide, solo_of_check (by decide),
    by decide +kernel, by decide, by decide +kernel, fun _ => by decide⟩
theorem witness_SoftTrapAndBreakpoint : ∃ s g, State.Solo s g := ⟨work, 0, test_work⟩
/-- A context with a handler and a record address, one without, one in its handler. -/
def handled (vec rcd : Word) (inside : Bool) : State := workR fun r => { r with trapVec := vec, trapRec := rcd, inHandler := inside }
theorem witness_TrapsAreTaken : (handled 0 0 false).trapReady 0 = true ∧ (handled 64 0x8000 false).trapReady 0 = true ∧
    ((handled 64 0x8000 false).ctx 0).seg = none ∧ ((handled 64 0x8000 false).ctx 0).attached = false ∧
    ((handled 64 0x8000 true).ctx 0).regs.inHandler = true ∧ ((handled 0 0x8000 false).ctx 0).regs.trapVec = 0 ∧
    ((handled 64 0x8000 false).ctx 0).regs.trapVec ≠ 0 := by decide +kernel
theorem witness_TrapsAreTaken_record : (({ code := .soft } : Trap).anySlot = false ∧ ({ code := .soft } : Trap).gate = false ∧
      ({ code := .soft } : Trap).told = false ∧ TrapCode.soft ≠ .step) ∧ ((flown.ctx 0).flights.map Flight.descr).flatten.length = 1 := by
  decide +kernel
theorem witness_EretReturns_waits : flown.Solo 0 ∧ (flown.ctx 0).flights ≠ [] ∧ (flown.core 0).thaw = false := ⟨solo_of_check (by decide), by decide, rfl⟩
theorem witness_EretReturns : (handled 64 0x8000 true).Solo 0 ∧ ((handled 64 0x8000 true).ctx 0).flights = [] ∧ (handled 64 0x8000 true).reqs = [] ∧ (handled 64 0x8000 false).Solo 0 :=
  ⟨solo_of_check (by decide), by decide, by decide, solo_of_check (by decide)⟩
/-- A segment table of one entry at 0x3000, all zeros, and text that begins at the pc: SEGB 0 has its entry, SEGB 1 is past the end. -/
def tabled : State := workR fun r => { r with segBase := 0x3000, segCount := 1, segText := 0 }
theorem witness_SegmentsOpen : tabled.Solo 0 ∧ (tabled.ctx 0).flights = [] ∧ (0 : BitVec 16).toNat < ((tabled.ctx 0).regs.segCount).toNat ∧
    tabled.reaches 0 0x3000 32 .read 0x3000 ∧ (BitVec.ofNat 64 (field (bytesNat (tabled.seenVa 0 0 0x3000 32)) 0 64)) = tabled.pc 0 - (tabled.ctx 0).regs.segText ∧
    ((tabled.ctx 0).regs.segCount).toNat ≤ (1 : BitVec 16).toNat :=
  ⟨solo_of_check (by decide), by decide, by decide, ok_of (by decide +kernel), by decide +kernel, by decide⟩
/-- Within a segment in its first run, whose entry's signature is the one an empty segment has, or another. -/
def inSeg (base : Nat) (sig : BitVec 32) : State := made
  { ctxW with seg := some { seg0 1 with base := base, signature := sig }, regs := { ctxW.regs with inSeg := true } } core0 part0
theorem witness_SegmentsCommitAndRerun_thaw : ((inSeg 9 0).core 0).thaw = false ∧ ((inSeg 9 0).core 0).halyard = [] ∧ ((inSeg 9 0).ctx 0).flights = [] := by decide
theorem witness_SegmentsCommitAndRerun : (∃ b sig, ({ seg0 1 with base := b, signature := sig } : Seg).commits 0x00780000 = true ∧ (inSeg b sig).Alone 0) ∧
    (inSeg 9 0).Alone 0 ∧ ({ seg0 1 with base := 9, signature := 0 } : Seg).commits 0x00780000 = false ∧ ((inSeg 9 0).ctx 0).regs.step = false ∧
    ((inSeg 9 0).ctx 0).regs.loops = [] ∧ (inSeg 9 0).loads = [] ∧ ((inSeg 9 0).core 0).engq.length ≤ 32 :=
  ⟨⟨1, ((seg0 1).outcome 0x00780000).2.1, by decide +kernel, alone_of_check (by decide +kernel)⟩, alone_of_check (by decide), by decide +kernel, by decide⟩

theorem witness_VectorArithmetic : work.Solo 0 ∧ dstCode 21 = true ∧ srcCode 8 = true ∧ srcCode 12 = true ∧ VFmt.notN .i8 = true ∧
    work.Sources 0 2 [8] [5] ∧ work.Sources 0 3 [8, 12] [5, 7] ∧ work.Sources 0 2 [8, 12, 21] [5, 7, 1] :=
  ⟨test_work, by decide, by decide, by decide, by decide, work_src1 2 (by decide), work_src2 3 (by decide), work_src3 2 (by decide)⟩
theorem witness_IntegerLanes : VFmt.isFloat .i8 = false ∧ (255 : Nat) < 2 ^ VFmt.width .i8 ∧ VFmt.isFloat .n32 = false ∧ VFmt.isSigned .i16 = true := by decide
theorem witness_VectorLogicShiftsCompares : work.Solo 0 ∧ dstCode 21 = true ∧ srcCode 8 = true ∧ srcCode 12 = true ∧ VFmt.isFloat .n8 = false ∧
    VFmt.isSigned .i16 = true ∧ work.Sources 0 2 [8, 12] [5, 7] ∧ work.Sources 0 3 [8, 12, 21] [5, 7, 1] :=
  ⟨test_work, by decide, by decide, by decide, by decide, by decide, work_src2 2 (by decide), work_src3 3 (by decide)⟩
theorem witness_VectorFunctionsAndConversion : work.Solo 0 ∧ dstCode 20 = true ∧ srcCode 8 = true ∧ work.Sources 0 2 [8] [5] ∧ VFmt.isFloat .bf16 = true ∧
    VFmt.i8 ≠ .bf16 ∧ VFmt.infOk .bf16 = true := ⟨test_work, by decide, by decide, work_src1 2 (by decide), by decide⟩
/-- Latches are empty; a pattern of VSHUF at the end of its range. -/
theorem witness_VectorMoves : work.Solo 0 ∧ dstCode 21 = true ∧ srcCode 8 = true ∧ srcCode 12 = true ∧ VFmt.isFloat .n8 = false ∧
    (work.ctx 0).regs.getLatch 0 = none ∧ (work.ctx 0).regs.getLatch 7 = none ∧ work.Sources 0 2 [8] [5] ∧ work.Sources 0 3 [8, 12] [5, 7] ∧
    shufOk 43 64 = true ∧ shufOk 5 64 = true ∧ (∃ c, work.src 0 2 2 21 = .ok c) ∧ work.portsFree 0 [21] ∧ (7 : BitVec 3) ≠ 0 :=
  ⟨test_work, by decide, by decide, by decide, by decide, by decide, by decide, work_src1 2 (by decide), work_src2 3 (by decide), by decide, by decide,
    ⟨1, ok_of (by decide +kernel)⟩, Or.inr (by decide +kernel), by decide⟩
theorem passes_of {s : State} {g slot : Nat} {i : Instr} (h : (match opOf i with
      | none => true
      | some op => match singlePrep i slot op (s.ctx g).regs.pc with
        | .error _ => true
        | .ok b => (stage3 s g b).isNone && freezeOf s g b == 0) = true) : s.passes g i slot := by
  intro op b h1 h2
  simpa [h1, h2] using h
/-- Codes 40 and 47 on empty bypass latches, 63 on an empty operand latch, of a move, an addition and a reduction. -/
theorem witness_VectorMoves_stale :
    (Instr.rowSources (.vmov .va .fp32 false 0 40) = some (2, [40]) ∧ Instr.rowSources (.vadd .vb .fp32 false 0 8 47) = some (3, [8, 47]) ∧
      Instr.rowSources (.vredadd .va .i8 false 0 63) = some (2, [63]) ∧ opLatch 2 0 = some 8) ∧
    Instr.wellFormed (.vmov .va .fp32 false 0 40) = true ∧ Instr.wellFormed (.vadd .vb .fp32 false 0 8 47) = true ∧
    Instr.wellFormed (.vredadd .va .i8 false 0 63) = true ∧ (work.ctx 0).regs.latch = [] ∧
    work.passes 0 (.vmov .va .fp32 false 0 40) 2 ∧ work.passes 0 (.vadd .vb .fp32 false 0 8 47) 3 ∧ work.passes 0 (.vredadd .va .i8 false 0 63) 2 :=
  ⟨by decide, by decide, by decide, by decide, by decide, passes_of (by decide +kernel), passes_of (by decide +kernel), passes_of (by decide +kernel)⟩
theorem witness_VectorReductions : work.Solo 0 ∧ dstCode 21 = true ∧ srcCode 8 = true ∧ srcCode 12 = true ∧ work.Sources 0 2 [8] [5] ∧
    work.Sources 0 3 [8, 12, 21] [5, 7, 1] := ⟨test_work, by decide, by decide, by decide, work_src1 2 (by decide), work_src3 3 (by decide)⟩
/-- A row whose header names no ceiling or another; the row 5's header, and that of a row of zeros. -/
theorem witness_Transforms : work.Solo 0 ∧ dstCode 20 = true ∧ srcCode 8 = true ∧ work.Sources 0 6 [8] [5] ∧ XFmt.plain .n16 = true ∧ XFmt.plain .e5m2 = true ∧
    XFmt.infOk .e5m2 = true ∧ XFmt.scaled .e4m3 = true ∧ XFmt.scaled .sx2 = true ∧ XFmt.packable .n8 = true ∧ (2 : BitVec 2) ≠ 3 ∧
    (∃ h : Byte, headerOk h = true ∧ headerCeil h = 3) ∧ (∃ h : Byte, headerOk h = false) :=
  ⟨test_work, by decide, by decide, work_src1 6 (by decide), by decide, by decide, by decide, by decide, by decide, by decide, by decide,
    by decide +kernel, by decide +kernel⟩

/-- Whether an outcome is a next state. -/
def isNext (o : Host.Outcome State Fault Refusal) : Bool := match o with
  | .next _ => true
  | .fault _ | .refused _ => false
theorem next_of {o : Host.Outcome State Fault Refusal} (h : isNext o = true) : ∃ t, o = .next t := by
  cases o with
  | next t => exact ⟨t, rfl⟩
  | fault _ | refused _ => simp [isNext] at h

/-- s1 is the first row, s2 the last of the scratchpad, s3 its end, s4 no multiple of 4; blocks at row 1024. -/
def padded : State := made { regsS [(2, 0x3FFF00), (3, 0x400000), (4, 0x102), (6, 1024)] with v := [(8, 5)] } core0 part0
theorem witness_ScratchpadAccesses : padded.Solo 0 ∧ dstCode 20 = true ∧ srcCodeNoHold 8 = true ∧ padded.Sources 0 4 [8] [5] ∧
    (padded.localCheck 0 0 256 256 = none ∧ (padded.core 0).loadBlocked 0 256 = false ∧ (padded.core 0).storeBlocked 0 256 = false) ∧
    (padded.localCheck 0 0x3FFF00 256 256 = none ∧ (padded.core 0).loadBlocked 0x3FFF00 256 = false ∧ (padded.core 0).storeBlocked 0x3FFF00 256 = false) ∧
    (padded.S 0 3).toNat % 256 = 0 ∧ (padded.core 0).split * 524288 < (padded.S 0 3).toNat + 256 ∧ (padded.S 0 4).toNat % 256 ≠ 0 ∧
    (padded.localCheck 0 0x3FFFF8 8 8 = none ∧ (padded.core 0).loadBlocked 0x3FFFF8 8 = false ∧ (padded.core 0).storeBlocked 0x3FFFF8 8 = false) ∧
    atomOk .cas true 62 = true ∧ atomOk .fadd false 63 = true :=
  ⟨solo_of_check (by decide), by decide, by decide, sources_of ⟨ok_of (by decide +kernel), rfl⟩ (Or.inr (by decide +kernel)) (by decide), by decide +kernel⟩
/-- Two raw blocks of the codec, of zeros, lie at the first row. -/
theorem witness_ScratchpadAccesses_expand : padded.expandCheck 0 0 = none ∧
    (padded.core 0).loadBlocked 0 ((rowEncoding [] 0).1 + (rowEncoding [] 0).2) = false := by decide +kernel
theorem witness_ScratchpadStoreFrame : padded.Solo 0 ∧ (padded.ctx 0).regs.step = false ∧ srcCodeNoHold 8 = true ∧ padded.Sources 0 4 [8] [5] ∧
    padded.localCheck 0 0 256 256 = none ∧ (padded.core 0).storeBlocked 0 256 = false ∧ (∃ t, exec (.stl 8 1 0) padded = .next t) ∧
    (∃ t, exec (.stlp 8 1 0) padded = .next t) ∧ (∃ t, exec (.stls 8 1 3 0) padded = .next t) ∧ (∃ t, exec (.atoml .add true 8 1) padded = .next t) :=
  ⟨solo_of_check (by decide), by decide, by decide, sources_of ⟨ok_of (by decide +kernel), rfl⟩ (Or.inr (by decide +kernel)) (by decide), by decide +kernel, by decide +kernel,
    next_of (by decide +kernel), next_of (by decide +kernel), next_of (by decide +kernel), next_of (by decide +kernel)⟩

/-- The TLB knows page 0; s1 = 0x2000 there, s2 the page's last row, s3 a page that no TLB knows; s6 data; a byte of the core unpublished. -/
def coreT : Core := { core0 with tlb := [(0, some (some page0))] }
def regsG : Ctx := { regsS [(1, 0x2000), (2, 0xFF00), (3, 0x10000), (6, 0x55)] with v := [(8, 5)] }
def global : State := made regsG coreT part0
def dirtyT : State := made regsG { coreT with unpub := [(0x2000, some ⟨1, 0, 0⟩)] } part0
theorem test_global : global.Solo 0 := solo_of_check (by decide)
theorem witness_GlobalLoadsIssue : (global.ctx 0).regs.step = false ∧ (global.ctx 0).regs.loops = [] ∧ dstCode 20 = true ∧
    global.tlbAt 0 0x2000 = some (some page0) ∧ (global.globalCheck 0 0x2000 256 .read (some page0)).toOption = some 0x2000 ∧
    global.outstanding 0 < 32 ∧ global.grantPending 0 0x2000 256 = false ∧ canonical 0x2000 = true ∧
    (global.globalCheck 0 0xFF00 256 .read (some page0)).toOption = some 0xFF00 ∧ (0xFF00 : Word).toNat % 256 = 0 ∧
    (global.globalCheck 0 0x2000 8 .read (some page0)).toOption = some 0x2000 ∧
    canonical 0x10000 = true ∧ global.tlbAt 0 0x10000 = none ∧ (global.env 0 4).policy 0x2000 .si = .si := by decide +kernel
theorem witness_GlobalStoresIssue : srcCodeNoHold 8 = true ∧ global.Sources 0 4 [8] [5] ∧
    (global.globalCheck 0 0x2000 256 .write (some page0)).toOption = some 0x2000 ∧
    (global.globalCheck 0 0x2000 8 .write (some page0)).toOption = some 0x2000 ∧ (global.env 0 4).policy 0x2000 .own = .own ∧
    (global.env 0 4).policy 0x2000 .wt = .wt ∧ (global.env 0 4).policy 0x2000 .wi = .wi ∧ global.outstanding 0 < 32 ∧ global.grantPending 0 0x2000 8 = false :=
  ⟨by decide, sources_of ⟨ok_of (by decide +kernel), rfl⟩ (Or.inr (by decide +kernel)) (by decide), by decide +kernel⟩
/-- Pages that refuse: page 1 has no mapping, 2 no rights, 3 is a pod's, 4 in a window that is down, 5 in one for others; the base is in s1. -/
def pgW (f : Nat) : PageMap := { page0 with mtype := .window, gate := 1, frame := f }
def coreP : Core := { core0 with tlb := [(1, some none), (2, some (some { page0 with r := false, w := false })), (3, some (some { page0 with mtype := .pod })),
  (4, some (some (pgW 1))), (5, some (some (pgW 2)))] }
def refusing : State :=
  let s := made (regsS []) coreP part0
  { s with parts := [(0, part0), (1, { Part.reset with windows := [(0, some ⟨65536, 65536, 0xFFFF, false, 0, 0⟩), (1, some ⟨131072, 65536, 0xFFFC, true, 0, 0⟩)] })] }
theorem witness_GlobalLoadsIssue_refused : let va (p : Nat) : Word := BitVec.ofNat 64 (65536 * p);
    refusing.Solo 0 ∧ ((refusing.ctx 0).regs.step = false ∧ (refusing.ctx 0).regs.loops = [] ∧ (refusing.core 0).thaw = false) ∧
    canonical (2 ^ 54) = false ∧ (canonical 0x2001 = true ∧ (0x2001 : Word).toNat % 2 ≠ 0) ∧ refusing.tlbAt 0 (va 0) = none ∧ refusing.tlbAt 0 (va 1) = some none ∧
    refusing.tlbAt 0 (va 2) = some (some { page0 with r := false, w := false }) ∧
    refusing.tlbAt 0 (va 3) = some (some { page0 with mtype := .pod }) ∧
    (refusing.tlbAt 0 (va 4) = some (some (pgW 1)) ∧ hasRight (pgW 1) .read = true ∧ hasRight (pgW 1) .write = true ∧ (pgW 1).mtype = .window ∧
      refusing.windowAt (pgW 1).gate.toNat (pagePa (pgW 1) 0) = some (0, ⟨65536, 65536, 0xFFFF, false, 0, 0⟩)) ∧
    (refusing.tlbAt 0 (va 5) = some (some (pgW 2)) ∧ refusing.windowAt 1 (pagePa (pgW 2) 0) = some (1, ⟨131072, 65536, 0xFFFC, true, 0, 0⟩) ∧
      refusing.partG 0 = 0 ∧ (0xFFFC : BitVec 16).getLsbD 0 = false ∧ (0xFFFC : BitVec 16).getLsbD 1 = false) :=
  ⟨solo_of_check (by decide), by decide +kernel⟩
/-- 32 loads outstanding, or an OWN request for the words on its way; a byte of the core's own unpublished; a copy that each policy asks for. -/
theorem witness_GlobalLoadsIssue_waits : (∃ l : GLoad, { global with loads := List.replicate 32 l : State }.outstanding 0 = 32) ∧
    { global with reqs := [{ id := 0, g := 0, kind := .own, line := 64, words := 1 }] : State }.grantPending 0 0x2000 8 = true ∧
    (dirtyT.tlbAt 0 0x2000 = some (some page0) ∧ Tab.get none (dirtyT.core 0).unpub 0x2000 = some ⟨1, 0, 0⟩ ∧ dirtyT.outstanding 0 = 0) ∧
    (global.env 0 4).policy 0x2000 .wt = .wt ∧ (global.env 0 4).policy 0x2000 .wi = .wi ∧ (global.env 0 4).policy 0x2000 .own = .own ∧
    rowKey ((global.env 0 4).dst 20) ≠ sKey 0 :=
  ⟨⟨{ id := 7, g := 0, dest := 261, va := 0, pa := 0, size := 8, known := [], asked := 0 }, by decide +kernel⟩, by decide +kernel⟩
/-- The context holds the word at 0x2000 registered. -/
def owner : State := made { regsG with owned := (List.range 8).map fun i => (0x2000 + i, some ⟨1, 0⟩) } coreT part0
theorem witness_GlobalAtomicsIssue : owner.Solo 0 ∧ atomOk .cas true 6 = true ∧
    (owner.globalCheck 0 0x2000 8 .atomic (some page0)).toOption = some 0x2000 ∧ owner.tlbAt 0 0x2000 = some (some page0) ∧ owner.outstanding 0 < 32 ∧
    owner.grantPending 0 0x2000 8 = false ∧ (owner.env 0 4).policy 0x2000 .own = .own ∧ (owner.env 0 4).policy 0x2000 .si ≠ .own ∧
    (∀ i < 8, (Tab.get none (owner.ctx 0).owned (0x2000 + i)).isSome = true ∧ owner.writePending 0 (0x2000 + i) = false) ∧
    (owner.core 0).unpub = [] ∧ Tab.get none (global.ctx 0).owned 0x2000 = none :=
  ⟨solo_of_check (by decide), by decide, by decide +kernel⟩
/-- All banks and tiles, none held by another; the context's launch. -/
def claims (b t : Word) : State := made { ctx0 with regs := { ctx0.regs with s := [(1, b), (2, t)] } }
  { core0 with banks := [(0, some (0, 1))], tOwner := [(11, some 0)] } part0
theorem witness_ClaimsAndReleases : (claims 0xFFFFFFFF 0xFFF).Solo 0 ∧ ((claims 0xFFFFFFFF 0xFFF).ctx 0).launch = some 0 ∧
    ((claims 0xFFFFFFFF 0xFFF).S 0 1).toNat < 2 ^ 32 ∧ ((claims 0xFFFFFFFF 0xFFF).S 0 2).toNat < 2 ^ 12 ∧
    (∀ b ∈ List.range 32, b < 4 * ((claims 0xFFFFFFFF 0xFFF).core 0).split ∧ ((claims 0xFFFFFFFF 0xFFF).core 0).moving.getLsbD b = false ∧
      ((Tab.get none ((claims 0xFFFFFFFF 0xFFF).core 0).banks b).all fun o => o.1 == 0) = true) ∧
    (∀ t ∈ List.range 12, ((Tab.get none ((claims 0xFFFFFFFF 0xFFF).core 0).tOwner t).all fun o => o == 0) = true ∧
      ((claims 0xFFFFFFFF 0xFFF).core 0).tileBusy t = false) :=
  ⟨solo_of_check (by decide), by decide +kernel⟩
/-- A bank and a tile that another has claimed, an entry on the tile; masks at and past their fields' ends, a bank past the split. -/
def claimed : State := made { ctx0 with regs := { ctx0.regs with s := [(1, 2), (2, 2 ^ 32), (3, 2 ^ 12), (4, 2 ^ 28)] } }
  { core0 with split := 7, banks := [(1, some (7, 1))], tOwner := [(1, some 3)], halyard := [{ id := 0, c := 3, op := 5, tile := 1, cnt := 1 }] } part0
theorem witness_ClaimsAndReleases_waits : claimed.Solo 0 ∧ (claimed.ctx 0).launch = some 0 ∧ (claimed.core 0).thaw = false ∧
    (claimed.S 0 2).toNat = 2 ^ 32 ∧ (claimed.S 0 3).toNat = 2 ^ 12 ∧ ((claimed.S 0 4).getLsbD 28 = true ∧ 4 * (claimed.core 0).split ≤ 28) ∧
    ((claimed.S 0 1).getLsbD 1 = true ∧ (∀ b ∈ (List.range 32).filter fun i => (claimed.S 0 1).getLsbD i, b < 4 * (claimed.core 0).split) ∧
      Tab.get none (claimed.core 0).banks 1 = some (7, 1) ∧ Tab.get none (claimed.core 0).tOwner 1 = some 3 ∧ (claimed.core 0).tileBusy 1 = true) :=
  ⟨solo_of_check (by decide), by decide +kernel⟩
/-- A core with a byte unpublished in page 0, and the ranges of a line, of nothing, and of too much. -/
def dirty : State := made (regsS [(1, 128), (2, 0x2000), (3, 0x10000000001), (4, 0x10000000000)]) { coreT with unpub := [(0x2000, some ⟨1, 0, 0⟩)] } part0
theorem witness_FencesAndRanges : dirty.Solo 0 ∧ global.Solo 0 ∧ global.drained 0 6 ∧ global.released 0 6 = true ∧ dirty.released 0 6 = false ∧
    (dirty.S 0 4).toNat ≤ 2 ^ 40 ∧ 2 ^ 40 < (dirty.S 0 3).toNat ∧ (dirty.core 0).unpub = [(0x2000, some ⟨1, 0, 0⟩)] ∧
    dirty.inVirtRange 0 (0x2000 / 128, 1) 0x2000 = true ∧ dirty.inVirtRange 0 (0, 0) 0x2000 = false ∧ dirty.reqs = [] ∧ (dirty.ctx 0).regs.step = false :=
  ⟨solo_of_check (by decide), test_global, fun _ => by decide, by decide +kernel⟩

/-- A little-endian record of fields (offset, value), and memory cells of fields (address, bytes, value), in rising order. -/
def fieldsN (l : List (Nat × Nat)) : Nat := l.foldl (fun n e => n + e.2 * 256 ^ e.1) 0
def cells (l : List (Nat × Nat × Nat)) : Tab Byte :=
  l.flatMap fun e => ((natBytes e.2.1 e.2.2).zipIdx.map fun b => (e.1 + b.2, b.1)).filter fun b => b.2 != 0

/-- An A, a W and a Q descriptor of BF16: one row of 16 elements, 64 columns of 16, one query of 64. -/
def tdA : BitVec 512 := BitVec.ofNat 512 (fieldsN [(0, 1), (1, 1), (8, 1), (16, 16), (20, 32)])
def tdW : BitVec 512 := BitVec.ofNat 512 (fieldsN [(0, 2), (1, 1), (12, 64), (16, 16)])
def tdQ : BitVec 512 := BitVec.ofNat 512 (fieldsN [(0, 3), (1, 1), (2, 1), (8, 1), (16, 64), (20, 128)])
/-- A store of BF16 blocks of four tokens, two layers and one head, with sequence 1 live at four tokens in one page. -/
def storeD : Store :=
  { desc := natBytes 256 (fieldsN [(0, 1), (1, 4), (2, 1), (3, 1), (4, 64), (6, 1), (7, 2), (8, 0x2000), (16, 8), (24, 0x2400), (32, 2), (36, 1),
      (40, 0x2800), (48, 0x2C00), (56, 3), (64, 0x10000), (72, 0x3000), (80, 8), (84, 4),
      (136, 0x18000), (144, 0x3800), (152, 8), (156, 4)]), rsv := [], lends := [], moves := [] }
def memKv : Tab Byte := cells [(0x2040, 1, 1), (0x2041, 1, 1), (0x2044, 4, 4), (0x2048, 4, 4), (0x204C, 4, 1), (0x2050, 8, 0x2200), (0x2058, 8, 0x2300),
  (0x2064, 4, 4), (0x2200, 8, 2 ^ 63), (0x2400, 4, 2), (0x2404, 4, 3), (0x3000, 8, 2 ^ 48 + 2 ^ 24)]
def partKv : Part := { part0 with
  pages := [(0, some page0), (1, some { page0 with frame := 1 })], stores := [(1, some storeD)]
  pod := [(1, some ⟨true, 3, 4, 1, 0, 256, 0x5010, 0, true⟩)] }
/-- Handles: of store 1, sequence 1, generation 1; and one that is dead. -/
def hnd : Word := 2 ^ 26 + 65
def ctxA : Ctx := { regsS [(1, hnd), (2, hnd + 1), (3, 0x200), (4, 64), (5, 0)] with v := [(8, 5)], td := [(0, tdA), (1, tdW), (2, tdQ)] }
def coreA : Core := { core0 with tOwner := (List.range 12).map fun i => (i, some (if i < 11 then 0 else 1)) }
def array : State := { made ctxA coreA partKv with mem := memKv }
theorem test_array : array.Solo 0 := solo_of_check (by decide)

theorem witness_DescriptorsAndPattern : (∃ d : Tab Byte,
      let s := made ctxA { coreA with ram := d } partKv
      s.Solo 0 ∧ s.localCheck 0 (s.S 0 3) 64 64 = none ∧ tdOk (BitVec.ofNat 512 (Mem.readN (s.core 0).ram (s.S 0 3).toNat 64)) = true) ∧
    array.localCheck 0 (array.S 0 3) 64 64 = none ∧ tdOk (BitVec.ofNat 512 (Mem.readN (array.core 0).ram (array.S 0 3).toNat 64)) = false :=
  ⟨⟨cells [(0x200, 64, tdA.toNat)], solo_of_check (by decide +kernel), by decide +kernel, by decide +kernel⟩, by decide +kernel⟩
/-- Tiles 0 to 5 of the context, and tile 11 of another; descriptors that match, drains and their ranges. -/
theorem witness_ArrayOperationsJoinTheQueue : (array.core 0).halyard.length < 16 ∧ array.ownsTiles 0 0 1 false ∧ array.ownsTiles 0 10 1 true ∧
    ¬array.ownsTiles 0 11 1 false ∧ (11 : BitVec 4).toNat + (0 : BitVec 4).toNat ≤ 11 ∧
    (tdKind tdA = 1 ∧ tdKind tdW = 2 ∧ tdK tdA = tdK tdW ∧ tdFmt tdA = .bf16 ∧ tdFmt tdW = .bf16 ∧ tdCol tdW + tdCols tdW ≤ 64) ∧
    Tab.get 0 (array.ctx 0).td 0 = tdA ∧ Tab.get 0 (array.ctx 0).td 1 = tdW ∧ (tdRanges tdA = [(0, 32)] ∧ array.localCheck 0 0 1 32 = none) ∧
    drainTarget .fp32 (((array.core 0).projected 0).int.getLsbD 0) = true ∧ ((array.core 0).projected 0).int = 0 ∧ ((array.core 0).projected 0).zeroInt = 0 ∧
    array.localCheck 0 (array.S 0 3) 256 1024 = none ∧ array.localCheck 0 (array.S 0 3) 256 (drainLen .bf16 1 1) = none := by
  refine ⟨by decide, ⟨?_, by decide⟩, ⟨?_, fun _ => by decide +kernel⟩, fun h => absurd (h.1 0 (by decide)) (by decide +kernel), by decide, by decide +kernel⟩
  all_goals intro i hi; have : i = 0 := by omega
  all_goals subst this; decide +kernel
theorem witness_AttentionCarryAndStatus : tdKind (Tab.get 0 (array.ctx 0).td 2) = 3 ∧ array.handle 0 (array.S 0 1).toNat = some (1, storeD, 1) ∧
    (array.S 0 1).toNat < 2 ^ 32 ∧ (array.S 0 5).toNat / 2 ^ 48 % 4 = 0 ∧ 0 / 2 ^ 56 < storeD.L ∧ 0 / 2 ^ 50 % 64 < storeD.H ∧ tdK tdQ = storeD.D ∧
    (ceilDiv storeD.D 64 + 1 = 2 ∧ Tab.get none (array.core 0).tOwner 0 = some 0 ∧ Tab.get none (array.core 0).tOwner 1 = some 0) ∧
    (tdRanges tdQ = [(0, 128)] ∧ array.localCheck 0 0 1 128 = none) ∧ dstCode 20 = true ∧ srcCodeNoHold 8 = true ∧ (9 : BitVec 4).toNat ≤ 9 ∧
    (11 : BitVec 4).toNat ≤ 11 := by decide +kernel
theorem witness_AttentionCarryAndStatus_carry : array.ownsTiles 0 10 1 true ∧ array.Sources 0 5 [8] [5] :=
  ⟨⟨fun i hi => by have : i = 0 := by omega
                   subst this; decide +kernel, fun _ => by decide +kernel⟩, sources_of ⟨ok_of (by decide +kernel), rfl⟩ (Or.inr (by decide +kernel)) (by decide)⟩
theorem witness_AttentionCarryAndStatus_full : ∃ x : Core, (made ctxA x partKv).Solo 0 ∧ 16 ≤ ((made ctxA x partKv).core 0).halyard.length ∧
    x.thaw = false ∧ (made ctxA x partKv).queuesFull 0 [8] :=
 
  ⟨{ coreA with halyard := List.replicate 16 { id := 0, c := 0, op := 5, tile := 1, cnt := 1 } }, solo_of_check (by decide +kernel),
    by decide +kernel, rfl, fun q h => absurd h (by decide +revert)⟩

/-- Records of the engines in the scratchpad, and what names them: s1 COPY, s2 GATH, s3 PUT, s4 COLL, s5 HLATCH, s6 TOPK, s7 TOPKR, s8 ids of
HIST and s9 their number, s10 a word of memory, s11 a handle, s12 and s14 append records, s13 a lend, s15 a window, s16 to s18 reservations. -/
def recs : Tab Byte := cells [
  (0x200, 64, fieldsN [(0, 1), (1, 1), (2, 1), (5, 2), (8, 0x1000), (16, 0x1800), (24, 64), (28, 1), (32, 1), (56, 0x6000)]),
  (0x240, 64, fieldsN [(0, 1), (1, 1), (2, 1), (5, 2), (8, 0x1000), (16, 0x1800), (24, 64), (28, 1), (32, 1), (36, 0x1400)]),
  (0x280, 64, fieldsN [(0, 1), (8, 0x1000), (24, 256)]),
  (0x2C0, 64, fieldsN [(2, 2), (8, 1)]),
  (0x300, 64, fieldsN [(0, 15), (1, 2), (2, 256), (4, 65536)]),
  (0x340, 64, fieldsN [(0, 7), (1, 7), (2, 1024), (4, 1), (8, 0x1000), (16, 0x1100)]),
  (0x380, 64, fieldsN [(8, 0x1000)]),
  (0x3C0, 32, fieldsN [(0, 1), (4, 15), (8, 0x1000), (16, 0x1080)]),
  (0x440, 32, fieldsN [(0, 2 ^ 26 + 65), (8, 1), (10, 4)]),
  (0x460, 32, fieldsN [(4, 15), (24, 2)]),
  (0x480, 64, fieldsN [(0, 1), (16, 65536), (24, 0x5010)]),
  (0x4C0, 32, fieldsN [(4, 16), (8, 0x1000), (16, 0x1080)]), (0x4E0, 32, fieldsN [(0, 2), (8, 0x1000), (16, 0x1080)])]
def ctxE : Ctx := regsS [(1, 0x200), (2, 0x240), (3, 0x280), (4, 0x2C0), (5, 0x300), (6, 0x340), (7, 0x380), (8, 0x400), (9, 1), (10, 0x5000),
  (11, hnd), (12, 0x3C0), (13, 0x440), (14, 0x460), (15, 0x480), (16, 0x100000004), (17, 0x100000000), (18, 0x100000005), (19, 0x6000), (20, 5), (22, 0x4C0), (23, 0x4E0)]
def eng : State := { made ctxE { core0 with ram := recs } partKv with mem := memKv }
theorem test_eng : eng.Solo 0 := solo_of_check (by decide +kernel)
theorem test_room : eng.engineRoom 0 := by unfold State.engineRoom; decide +kernel
theorem object_ready : eng.objectReady 0 0x6000 :=
  Or.inr ⟨0x6000, ok_of (by decide +kernel), ok_of (by decide +kernel), ok_of (by decide +kernel), by decide +kernel⟩
/-- The record that a context's scalar names, and a command of it. -/
def recOf (a : Word) : List Byte := Mem.readBytes recs a.toNat 64
def cmdOf (op : Nat) (a : Word) : EngCmd := { eng.cmd 0 op with record := recOf a, imm := 3, scope := 2 }

theorem witness_CopiesTransfersAndCollectives :
    eng.localCheck 0 (eng.S 0 1) 64 64 = none ∧ (cmdOf 1 0x200).copyOk recs (fun k => eng.inPart 0 (k / 4)) = true ∧
    recN (recOf 0x200) 5 1 = 2 ∧ recN (recOf 0x200) 56 8 = 0x6000 ∧ (cmdOf 1 0x200).runs recs = [(0x1000, 0x1800)] ∧ (cmdOf 1 0x200).targets 0 = [0] ∧
    eng.localCheck 0 0x1000 1 64 = none ∧ eng.localCheckOn 0 0 0x1800 1 64 = none ∧
    (cmdOf 2 0x240).copyOk recs (fun k => eng.inPart 0 (k / 4)) = true ∧ (cmdOf 3 0x240).copyOk recs (fun k => eng.inPart 0 (k / 4)) = true ∧
    (cmdOf 2 0x240).runs recs = [(0x1000, 0x1800)] ∧ eng.localCheck 0 0x1400 1 4 = none ∧ (cmdOf 3 0x240).runs recs = [(0x1000, 0x1800)] ∧
    (recN (recOf 0x280) 40 24 = 0 ∧ recN (recOf 0x280) 0 1 ≤ 1 ∧ recN (recOf 0x280) 1 1 ≤ 1 ∧ recN (recOf 0x280) 2 6 = 0 ∧
      recN (recOf 0x280) 24 8 = 256 ∧ recN (recOf 0x280) 16 8 = 0 ∧ recN (recOf 0x280) 32 8 = 0 ∧ eng.localCheck 0 0x1000 1 256 = none) ∧
    Tab.get none (eng.part 0).pod 1 = some ⟨true, 3, 4, 1, 0, 256, 0x5010, 0, true⟩ ∧ Tab.get none (eng.part 0).pod 1023 = none ∧
    (recN (recOf 0x2C0) 0 1 = 0 ∧ recN (recOf 0x2C0) 1 1 = 0 ∧ recN (recOf 0x2C0) 2 1 = 2 ∧ recN (recOf 0x2C0) 3 1 = 0 ∧ recN (recOf 0x2C0) 4 4 = 0 ∧
      recN (recOf 0x2C0) 8 8 = 1 ∧ eng.quadCount 0 = 1 ∧ (eng.ctx 0).unit = some ⟨0, 0, 0, false⟩ ∧ recN (recOf 0x2C0) 32 8 = 0 ∧
      recN (recOf 0x2C0) 40 24 = 0) := by decide +kernel
theorem witness_SignalsLaunchesAndSelectors : eng.reaches 0 0x5000 8 .atomic 0x5000 ∧ eng.reaches 0 0x5000 128 .read 0x5000 ∧
    ((eng.ctx 0).acts = none ∧ (eng.ctx 0).writer = some 0 ∧ (eng.ctx 0).unit = some ⟨0, 0, 0, false⟩ ∧ eng.launches[0]? = some pl) ∧
    ((eng.S 0 9).toNat < 2 ^ 36 ∧ (eng.S 0 9).toNat % 2 ^ 32 = 1 ∧ eng.localCheck 0 (eng.S 0 8) 1 1 = none ∧ (eng.S 0 21).toNat % 2 ^ 32 = 0) ∧
    (eng.localCheck 0 0x300 64 64 = none ∧ recN (recOf 0x300) 0 1 = 15 ∧ recN (recOf 0x300) 1 1 = 2 ∧ recN (recOf 0x300) 2 2 = 256 ∧
      recN (recOf 0x300) 4 4 = 65536 ∧ recN (recOf 0x300) 28 4 = 0 ∧ recN (recOf 0x300) 48 16 = 0 ∧ recN (recOf 0x300) 32 8 = 0) ∧
    (eng.localCheck 0 0x340 64 64 = none ∧ recN (recOf 0x340) 0 1 = 7 ∧ recN (recOf 0x340) 1 1 = 7 ∧ recN (recOf 0x340) 2 2 = 1024 ∧
      recN (recOf 0x340) 4 4 = 1 ∧ recN (recOf 0x340) 32 32 = 0 ∧ eng.localCheck 0 0x1000 1 4 = none ∧ eng.localCheck 0 0x1100 1 8 = none ∧
      recN (recOf 0x340) 24 8 = 0) ∧
    (eng.localCheck 0 0x380 64 64 = none ∧ recN (recOf 0x380) 0 1 = 0 ∧ recN (recOf 0x380) 1 7 = 0 ∧ recN (recOf 0x380) 24 40 = 0 ∧
      eng.localCheck 0 0x1000 16 (16 + 16 * eng.topkK 0 0) = none ∧ recN (recOf 0x380) 16 8 = 0) :=
  ⟨ok_of (by decide +kernel), ok_of (by decide +kernel), by decide +kernel, by decide +kernel, by decide +kernel, by decide +kernel, by decide +kernel⟩
/-- A launch whose units core 0 may take; a barrier of two on the die; a context whose round is complete, not arrived, or arrived. -/
def takeable : Launch :=
  { pl with record := natBytes 128 (fieldsN [(36, 1), (67, 1)]), stage := .eligible, next := 3, total := 5, outstanding := 0 }
def barred (rel : Bool) (arr : Option (Nat × Nat)) : State := { made { ctxE with released := rel, arrived := arr } core0 { partKv with bars := [(256 + 127, 2)] } with
  launches := [pl, takeable] }
theorem witness_BarriersAndTakes : (barred true (some (3, 127))).Solo 0 ∧ (barred false none).Solo 0 ∧ (barred false (some (3, 127))).Solo 0 ∧
    (barred true none).barCount 0 3 127 ≠ 0 ∧ (barred true none).barCount 0 3 0 = 0 ∧ (barred true none).barCount 0 7 127 = 0 ∧
    (barred true (some (3, 127))).drained 0 3 ∧ (barred false none).released 0 3 = true ∧
    ((barred false none).ctx 0).taken = [] ∧ (barred false none).takeLaunch 0 = some 1 ∧ (barred false none).launches[1]? = some takeable ∧
    eng.takeLaunch 0 = none :=
  ⟨solo_of_check (by decide +kernel), solo_of_check (by decide +kernel), solo_of_check (by decide +kernel), by decide +kernel, by decide +kernel,
    by decide +kernel, fun _ => by decide, by decide +kernel, by decide +kernel, by decide +kernel, by decide +kernel, by decide +kernel⟩
theorem witness_KvAppendsSyncsAndRequests :
    (eng.S 0 11).toNat < 2 ^ 32 ∧ eng.handle 0 (eng.S 0 11).toNat = some (1, storeD, 1) ∧ eng.handle 0 (array.S 0 2).toNat = none ∧
    (eng.core 0).journalUsed + storeD.entrySize ≤ 524288 ∧ eng.appsWaiting 0 = false ∧ eng.localCheck 0 (eng.S 0 12) 32 32 = none ∧
    (recN (recOf 0x3C0) 1 3 = 0 ∧ recN (recOf 0x3C0) 25 7 = 0 ∧ recN (recOf 0x3C0) 24 1 = 0 ∧ recN (recOf 0x3C0) 0 1 = 1 ∧ 1 < storeD.L ∧
      recN (recOf 0x3C0) 4 4 < eng.seqN 0 storeD 1 36 4 * storeD.T ∧ eng.localCheck 0 0x1000 1 storeD.runBytes = none ∧
      eng.localCheck 0 0x1080 1 storeD.runBytes = none) ∧
    (recN (recOf 0x460) 1 3 = 0 ∧ recN (recOf 0x460) 24 1 = 2 ∧ recN (recOf 0x460) 8 8 = 0 ∧ recN (recOf 0x460) 16 8 = 0) ∧
    ((eng.core 0).journal = [] ∧ (eng.ctx 0).dropped = none ∧ eng.released 0 4 = true) ∧
    (eng.localCheck 0 (eng.S 0 13) 32 32 = none ∧ recN (recOf 0x440) 12 4 = 0 ∧ recN (recOf 0x440) 24 8 = 0 ∧
      eng.handle 0 (recN (recOf 0x440) 0 4) = some (1, storeD, 1) ∧ recN (recOf 0x440) 4 4 < eng.seqN 0 storeD 1 12 4 ∧
      Tab.get none (eng.part 0).pod (recN (recOf 0x440) 8 2) = some ⟨true, 3, 4, 1, 0, 256, 0x5010, 0, true⟩ ∧ recN (recOf 0x440) 10 2 = 4 ∧
      recN (recOf 0x440) 16 8 = 0) ∧
    ((eng.S 0 16).toNat < 2 ^ 38 ∧ eng.storeOf 0 1 = some storeD ∧ (eng.ctx 0).launch = some 0 ∧ storeD.top 0 - storeD.reserved = 4 ∧
      (eng.S 0 16).toNat % 2 ^ 32 = 4 ∧ (eng.S 0 17).toNat % 2 ^ 32 = 0 ∧ (eng.S 0 18).toNat % 2 ^ 32 = 5 ∧ storeD.n 20 4 = 0) := by decide +kernel
/-- Records of a position one past the reach, and of a layer one past the last. -/
theorem witness_KvAppends_past : let r := Mem.readBytes recs 0x4C0 32; let q := Mem.readBytes recs 0x4E0 32;
    eng.localCheck 0 (eng.S 0 22) 32 32 = none ∧ recN r 1 3 = 0 ∧ recN r 25 7 = 0 ∧ recN r 24 1 = 0 ∧
    eng.seqN 0 storeD 1 36 4 * storeD.T = recN r 4 4 ∧ eng.localCheck 0 (eng.S 0 23) 32 32 = none ∧ recN q 1 3 = 0 ∧ recN q 25 7 = 0 ∧ storeD.L = recN q 0 1 := by
  decide +kernel
def wE : Writer := { tag := eng.tagOf 0, p := 0 }
/-- The length of sequence 1 is four tokens, its table one page: trims and demotions at and past the ends. -/
theorem witness_KvSequences : (eng.S 0 11).toNat < 2 ^ 32 ∧ eng.handle 0 (eng.S 0 11).toNat = some (1, storeD, 1) ∧
    eng.seqN 0 storeD 1 8 4 = 4 ∧ 4 < (eng.S 0 20).toNat ∧ (eng.S 0 21).toNat = 0 ∧ eng.seqN 0 storeD 1 12 4 = 1 ∧
    (∀ b ∈ [true, false], (eng.updCtx 0 (Ctx.moveOn b)).compactTrouble 0 storeD 1 = none ∧
      ((eng.updCtx 0 (Ctx.moveOn b)).demoteOf 0 storeD 1 0 1).bind ((eng.updCtx 0 (Ctx.moveOn b)).blkTrouble 0 storeD) = none) ∧
    ((eng.updCtx 0 (Ctx.moveOn true)).kvCompact wE 1 storeD 1 (eng.ctx 0).launch).isSome = true ∧
    ((eng.updCtx 0 (Ctx.moveOn false)).kvCompact wE 1 storeD 1 (eng.ctx 0).launch).isSome = true ∧
    ((eng.updCtx 0 (Ctx.moveOn true)).kvDemote wE 1 storeD 1 0 1).isSome = true ∧
    ((eng.updCtx 0 (Ctx.moveOn false)).kvDemote wE 1 storeD 1 0 1).isSome = true := by decide +kernel
/-- A store with no slot free; holes from token 0 on, none, or after a token with no block free; a page all of whose tokens are there. -/
def engMask (n : Nat) : State := { eng with mem := Mem.write memKv 0x2300 (BitVec.ofNat 8 n) }
def storeF : Store := storeD.put 84 4 0
theorem witness_KvSequences_effects : (storeD.put 32 4 0).n 32 4 = 0 ∧ storeD.n 32 4 = 2 ∧ eng.seqN 0 storeD 3 36 4 < eng.seqN 0 storeD 1 12 4 ∧
    ({ eng with mem := Mem.write memKv 0x20E4 1 : State }).seqN 0 storeD 3 36 4 = 1 ∧ eng.seqN 0 storeD 1 12 4 = 1 ∧
    (eng.refs 0 storeD (storeD.blkOfRef 0)) ≤ 65534 ∧ (engMask 0).seqN 0 storeD 1 8 4 = 4 ∧ ((engMask 0).maskW 0 storeD 1 0) = 0 ∧ ((engMask 15).maskW 0 storeD 1 0) = 15 ∧
    ((engMask 0).allocN wE 1 (some 0) 0 0).isSome = true ∧
    ((engMask 1).maskW 0 storeF 1 0) = 1 ∧ ((engMask 1).updStore 0 1 (fun _ => storeF)).allocN wE 1 (some 0) 0 1 = none ∧
    eng.storeOf 0 1 = some storeD ∧ (eng.endMoves wE 1).demoteOf 0 storeD 1 0 1 = none := by decide +kernel
theorem witness_TimeServicesAndQueues : svcKnown 1023 = false ∧ eng.barWaiters 0 3 127 = [] ∧
    eng.localCheck 0 (eng.S 0 15) 64 64 = none ∧ podRecOk (recOf 0x480) = true ∧ recN (recOf 0x480) 24 8 = 0x5010 ∧
    eng.reaches 0 0x5010 8 .read 0x5010 ∧ eng.reaches 0 0x5010 8 .write 0x5010 ∧ eng.reaches 0 0x5010 8 .atomic 0x5010 ∧
    (eng.S 0 20).toNat = 5 ∧ eng.inPart 0 (5 / 4 / 4) = true ∧ (eng.core (5 / 4)).health ≠ .out ∧ eng.localCheck 0 (eng.S 0 8) 256 256 = none ∧
    eng.rowsWaiting 0 (eng.S 0 20) = false ∧ Tab.get [] (eng.core (5 / 4)).queues 1 = [] ∧ (eng.part 0).privilege = false :=
  ⟨by decide, by decide +kernel, by decide +kernel, by decide +kernel, by decide +kernel, ok_of (by decide +kernel), ok_of (by decide +kernel),
    ok_of (by decide +kernel), by decide +kernel⟩
/-- A partition with the privilege, and a launch held with a failed dependence whose object lies at 0x6000; a full queue of context 5. -/
def heldL : Launch := { pl with record := natBytes 128 (fieldsN [(72, 0x6000)]), stage := .held, failed := some 0 }
def privileged : State := { made ctxE { core0 with ram := recs } { partKv with privilege := true } with
  launches := [pl, heldL], cores := [(0, { core0 with ram := recs }), (1, { Core.reset with queues := [(1, List.replicate 8 3)] })] }
theorem witness_TimeServicesAndQueues_held : privileged.Solo 0 ∧ (privileged.part 0).privilege = true ∧ privileged.heldFailed 0 (privileged.S 0 19) = some 1 ∧
    8 ≤ (Tab.get [] (privileged.core 1).queues 1).length := ⟨solo_of_check (by decide +kernel), by decide +kernel⟩
/-- A result of each kind that falls due at its step, alone. -/
def due (f : Flight) : State := made { ctxW with flights := [f] } core0 part0
theorem witness_ResultsLand : ((due { kind := 1, remain := 0, dest := 191, slot := 2, row := 9 }).ctx 0).flights.filter (fun f => f.remain == 0) =
      [{ kind := 1, remain := 0, dest := 191, slot := 2, row := 9 }] ∧
    ((due { kind := 4, remain := 0, dest := 7, slot := 1, value := 1 }).ctx 0).seg = none ∧
    (encode (.add 3 1 2)).isSome = true := by decide +kernel
theorem witness_ResultsLand_before : (landDue (due { kind := 3, remain := 0, dest := 1, slot := 1, value := 9 }) 0).Solo 0 :=
  solo_of_check (by decide +kernel)
/-- Writes of control registers at the ends of their ranges, a pending update of the statistics pair, a row that samples it; two loops active. -/
theorem witness_ResultsLand_control : (∀ f ∈ [({ kind := 7, remain := 0, dest := 0x030, slot := 1, value := 8 } : Flight),
      { kind := 7, remain := 0, dest := 0x061, slot := 1, value := 0xBFBFBFBF }, { kind := 7, remain := 0, dest := 0x060, slot := 1, value := 0xFFFD },
      { kind := 9, remain := 0, dest := 0, slot := 6 }, { kind := 11, remain := 0, dest := 191, slot := 6, value := 1 }],
      ((due f).ctx 0).flights.filter (fun f => f.remain == 0) = [f] ∧ f.slipped = false) ∧
    (∀ i < 4, (0xBFBFBFBF : Nat) / 256 ^ i % 256 < 192) ∧ ((due { kind := 7, remain := 0, dest := 0x030, slot := 1, value := 0 }).core 0).split = 8 ∧
    (work.partOf 0 < 8 ∧ (work.shroud 0).partLog2 < 4 ∧ work.partOf 31 < 8) ∧
    ((looped [⟨0, 640, 3⟩, ⟨0, 320, 2⟩]).ctx 0).regs.loops.length = 2 := by decide +kernel
theorem witness_RegisterInstructionsFrame : work.Solo 0 ∧ (work.ctx 0).regs.step = false ∧ Instr.registerOnly (.add 3 1 2) = true ∧
    (∃ t, exec (.add 3 1 2) work = .next t) ∧ (∃ t, exec (.vfma .va .fp32 false 20 8 12) work = .next t) ∧ (∃ t, exec (.xcmp 0 20 8) work = .next t) :=
  ⟨test_work, by decide +kernel, by decide, next_of (by decide +kernel), next_of (by decide +kernel), next_of (by decide +kernel)⟩
theorem witness_IllegalOperandsTrap : work.Alone 0 ∧ Instr.wellFormed (.loop 3 0) = false ∧ (encode (.loop 3 0)).isSome = true ∧
    Instr.wellFormed (.vadd .va .fp32 false 40 0 0) = false ∧ (encode (.vadd .va .fp32 false 40 0 0)).isSome = true := ⟨test_work.toAlone, by decide⟩

/-! ### States for the events of the part -/

/-- An answered load of context 1 for s5; a switch under way from context 0 to 2; a walk asked for; a WI copy. -/
def load5 : GLoad := { id := 7, g := 1, dest := 261, va := 0, pa := 0, size := 8, known := [], asked := 0, answer := some 9 }
def busyCore : State := { made ctxW { core0 with passTo := some 2, walks := [0], wiLines := [(64, some ⟨0, 0⟩)] } part0 with
  loads := [load5], ctxs := [(0, ctxW), (2, ctx0), (5, { Ctx.reset with stopped := true })] }
theorem witness_CoreEvents : busyCore.loads.find? (fun m => m.id == 7) = some load5 ∧ load5.asked = 0 ∧ load5.also = [] ∧ load5.wu = [] ∧
    load5.logAt = none ∧ load5.mark = none ∧ (busyCore.ctx 1).writing 261 = false ∧ (busyCore.core 0).holder = some 0 ∧ (busyCore.core 0).passTo = some 2 ∧
    (busyCore.core 0).walks = [0] ∧ (busyCore.ctx 5).stopped = true ∧ (busyCore.ctx 5).regs.trapRec = 0 ∧ (busyCore.core 0).health ≠ .out := by decide +kernel
/-- The identity maps of a core without units: rows 0 to 255, columns 0 to 383, the checksum in the last column. -/
def idRows : List (BitVec 9) := (List.range 256).map (BitVec.ofNat 9)
def idCols : List (BitVec 9) := (List.range 384).map (BitVec.ofNat 9)
theorem ofNat_inj {n : Nat} (hn : n ≤ 512) : ((List.range n).map (BitVec.ofNat 9)).Nodup := by
  rw [List.Nodup, List.pairwise_map]
  refine List.Pairwise.imp_of_mem (fun {a b} ha hb hab he => hab ?_) (List.nodup_range (n := n))
  have := congrArg BitVec.toNat he
  simp only [BitVec.toNat_ofNat, List.mem_range] at this ha hb
  omega
theorem witness_CoreEvents_maps : idRows.length = 256 ∧ idRows.Nodup ∧ (idRows.all fun r => r.toNat < 264) = true ∧ idCols.length = 384 ∧
    idCols.Nodup ∧ ((391 : BitVec 9) ∉ idCols ∧ (391 : BitVec 9).toNat < 392) ∧ (idCols.all fun c => c.toNat < 392) = true ∧
    (∀ c < 4, (solo.ctx (4 * 7 + c)).unit = none) ∧ (solo.core 7).halyard = [] :=
  ⟨by simp [idRows], ofNat_inj (by decide), by decide +kernel, by simp [idCols], ofNat_inj (by decide), by decide +kernel, by decide +kernel, by decide +kernel, by decide⟩

/-- The halyard with an MZERO ahead of a lane, one running alone, an MMA of 96 steps, an ATTN at a page that faults, one held. -/
def hz : HEntry := { id := 5, c := 0, op := 5, tile := 0, cnt := 2 }
def hm : HEntry :=
  { id := 6, c := 0, op := 2, tile := 0, cnt := 1, ta := BitVec.ofNat 512 (fieldsN [(0, 1), (1, 1), (8, 1), (16, 96), (20, 192)])
    tb := BitVec.ofNat 512 (fieldsN [(0, 2), (1, 1), (12, 64), (16, 96)]), running := true, started := true }
def ha : HEntry := { id := 7, c := 0, op := 8, tile := 0, cnt := 2, ta := tdQ, hnd := hnd, range := 0, gen := 1, running := true, started := true }
def hf (n : Nat) : HEntry := { ha with running := false, held := true, fault := n }
def hs : HEntry := { ha with staged := some { pi := 0, T := 4, fmt := 1, bits := 0, fill := 0, spec := 0, sk := one32, sv := one32 } }
/-- Sequence 1's page at location `loc`. -/
def lanes (h : HEntry) (loc : Nat := 0) : State :=
  { made ctxA { coreA with halyard := [h], nextEntry := 8 } partKv with mem := Mem.write memKv 0x2207 (BitVec.ofNat 8 (0x80 + 16 * loc)) }
theorem witness_HalyardEvents : ((lanes hz).core 0).running true = none ∧
    (((lanes hz).core 0).halyard.filter fun e => (lanes hz).candidate 0 true e.c == some e).head? = some hz ∧
    ((lanes hm).core 0).running false = some hm ∧ hm.op ≠ 8 ∧ hm.pos + 64 < hm.steps ∧
    ((lanes { hz with running := true }).core 0).halyard = [{ hz with running := true }] ∧
    (((lanes ha 3).core 0).running false = some ha ∧ ((lanes ha 3).core 0).running true = none ∧ (lanes ha 3).attnLive 0 ha = true ∧
      (lanes ha 3).attnDone 0 ha = false ∧ ((lanes ha 3).ctx 0).giving = false ∧
      (lanes ha 3).attnNext 0 ha = some (1, storeD, 1, 0) ∧ (lanes ha 3).pageFault 0 storeD ((lanes ha 3).pageE 0 storeD 1 0) = 6) ∧
    ((lanes ha).attnLive 0 ha = true ∧ (lanes ha).attnNext 0 ha = some (1, storeD, 1, 0) ∧
      (lanes ha).pageFault 0 storeD ((lanes ha).pageE 0 storeD 1 0) = 0 ∧ ((lanes hs).core 0).running false = some hs) := by decide +kernel
/-- An ATTN whose handle has gone stale; one whose page lies where no page is mapped; one whose block can be read. -/
theorem witness_HalyardEvents_ends_launch :
    (let h := { ha with hnd := hnd + 1 }; let s := lanes h;
      (s.core 0).running false = some h ∧ (s.core 0).running true = none ∧ s.attnDone 0 h = false ∧ s.attnLive 0 h = false ∧ (s.ctx 0).launch = some 0 ∧
      (s.ctx 0).giving = false) ∧
    (let s := { lanes ha with parts := [(0, { partKv with pages := [(0, some page0)] })] }; let e := s.pageE 0 storeD 1 0;
      s.attnNext 0 ha = some (1, storeD, 1, 0) ∧ s.attnDone 0 ha = false ∧ s.attnLive 0 ha = true ∧ s.pageFault 0 storeD e = 0 ∧
      ((s.blockOf 0 storeD e).bind fun b => s.layerTrouble 0 storeD b (field ha.range.toNat 56 8)).isSome = true) ∧
    (let s := lanes ha; ((s.blockOf 0 storeD (s.pageE 0 storeD 1 0)).bind fun b => s.layerTrouble 0 storeD b (field ha.range.toNat 56 8)) = none ∧
      s.attnDone 0 ha = false) := by decide +kernel
/-- Entries at their ends: an MMA in its last group, a carry import whose tile's rows no earlier entry is to write. -/
theorem witness_HalyardEvents_ends : ((lanes { hm with pos := 64 }).core 0).running false = some { hm with pos := 64 } ∧ hm.steps ≤ 64 + 64 ∧
    ((lanes { hz with running := true }).core 0).running true = some { hz with running := true } ∧
    (let e : HEntry := { hz with op := 9, cnt := 1, running := true }; (lanes e).destFree 0 e = true) := by decide +kernel
/-- Held entries: at a page that no append fills, or is there; in transit no more; at a block of tier 0, or of tier 1 with room below. -/
theorem witness_HalyardEvents_faults : ((lanes (hf 5)).core 0).halyard.find? (fun h => h.held && h.fault != 0) = some (hf 5) ∧
    (lanes (hf 5)).attnNext 0 (hf 5) = some (1, storeD, 1, 0) ∧ peValid (((lanes (hf 5)).fileHandle 0 hnd).pageE 0 storeD 1 0) = true ∧
    (let s : State := { lanes (hf 5) with mem := Mem.write memKv 0x2207 0 };
      s.attnNext 0 (hf 5) = some (1, storeD, 1, 0) ∧ peValid ((s.fileHandle 0 hnd).pageE 0 storeD 1 0) = false) ∧
    ((lanes (hf 6)).attnNext 0 (hf 6) = some (1, storeD, 1, 0) ∧ (lanes (hf 6)).inTransit 0 storeD ((lanes (hf 6)).pageE 0 storeD 1 0) = false) ∧
    ((lanes (hf 7)).attnNext 0 (hf 7) = some (1, storeD, 1, 0) ∧
      (((lanes (hf 7)).endMoves (ctl 0) 1).blockOf 0 storeD (((lanes (hf 7)).endMoves (ctl 0) 1).pageE 0 storeD 1 0)).map (fun b => b.tier) = some 0) ∧
    (let s : State := { lanes (hf 7) with mem := Mem.write (Mem.write memKv 0x2207 0x90) 0x3806 1 };
      s.attnNext 0 (hf 7) = some (1, storeD, 1, 0) ∧
      ((s.endMoves (ctl 0) 1).blockOf 0 storeD ((s.endMoves (ctl 0) 1).pageE 0 storeD 1 0)).any (fun b => b.tier != 0 &&
        ((s.endMoves (ctl 0) 1).promoteBlock 0 1 b).isSome) = true) := by decide +kernel

/-- Engines: a command in the queue, a COPY of one granule on channel 3, a SIGNAL, a PUT under way, a row waiting, an entry of the journal. -/
def copyC : EngCmd := { cmdOf 1 0x200 with record := natBytes 64 (fieldsN [(0, 1), (1, 1), (2, 1), (5, 2), (8, 0x1000), (16, 0x1800), (24, 64), (28, 1), (32, 1)]) }
def thC : Thread := { id := 6, cmd := copyC, core := 0, p := 0 }
def thS : Thread := { id := 7, cmd := { eng.cmd 0 7 with a := 0x5000, b := 7, scope := 6 }, core := 0, p := 0 }
def thP : Thread := { id := 8, cmd := { eng.cmd 0 4 with imm := 1, record := natBytes 64 (fieldsN [(0, 1), (8, 0x1000), (24, 256)]) }, core := 0, p := 0, sent := true }
def thQ : Thread := { id := 9, cmd := { eng.cmd 0 31 with a := 5, row := 9 }, core := 0, p := 0 }
def jE : JEntry := { g := 0, launch := none, tag := 1, hnd := hnd, size := storeD.entrySize, record := natBytes 32 0, data := natBytes 256 7 }
def exportW : PodWindow := ⟨false, 3, 4, 2, 0x5100, 256, 0x5018, 0, true⟩
def running : State :=
  { made ctxE { core0 with ram := recs, engq := [cmdOf 1 0x200], chans := [(3, ⟨some 6, [], 0, none⟩)], journal := [jE] }
      { partKv with pod := [(1, some ⟨true, 3, 4, 1, 0, 256, 0x5010, 0, true⟩), (2, some exportW)] } with
    mem := memKv, threads := [thC, thS, thP, thQ], nextThread := 10, outbox := [(some 8, 4, natBytes 256 1)] }
theorem witness_EngineEvents : (running.core 0).engq = [cmdOf 1 0x200] ∧ (running.core 0).accepts (cmdOf 1 0x200) = true ∧
    (running.copyAt 0 3 = some (thC, 0, List.range 64) ∧ running.covered 0 copyC = true ∧ running.copyStalls 0 thC (List.range 64) = false ∧
      copyC.op = 1 ∧ copyC.chan = 3 ∧ copyC.n 1 1 = 1 ∧ copyC.n 3 1 = 0 ∧ copyC.n 4 1 = 0 ∧
      ((List.range 64).map fun j => (running.engRead (running.pagesAt thC j) 0 (copyC.n 0 1) (copyC.addrs recs j).1).toOption) =
        (List.replicate 64 (0 : Byte)).map some ∧
      ∀ j ∈ List.range 64, (copyC.addrs recs j).2 < (running.core 0).split * 524288) ∧
    (running.threads.find? (fun u => u.id == 7) = some thS ∧ thS.cmd.op = 7 ∧ running.covered 0 thS.cmd = true ∧
      (running.resolve 0 0x5000 8 .atomic).toOption = some 0x5000) ∧
    (running.threads.find? (fun u => u.id == 8) = some thP ∧ thP.cmd.op = 4 ∧ thP.sent = true ∧ running.putBefore thP true = false ∧ (Tab.get none (running.part 0).pod 1).map (fun w => w.up) = some true) ∧
    (running.threads.find? (fun u => u.id == 9) = some thQ ∧ thQ.cmd.op = 31 ∧ Tab.get [] (running.core 1).queues 1 = [] ∧
      (running.threads.all fun u => u.cmd.op != 31 || u.id == 9) = true) ∧
    (running.core 0).journal = [jE] ∧
    (running.exportFor 0 2 4 1 = some exportW ∧ (running.part 0).migration = 0 ∧ (running.resolve 0 (0x5100 + 255) 1 .write).toOption = some 0x51FF) := by
  decide +kernel
/-- A COPY whose bytes are all delivered, a TRIG, an HLATCH of 256 counts whose table can be written, a TOPK with none before it. -/
def thD : Thread := { thC with id := 20, state := 2 }
def thT : Thread := { id := 21, cmd := { eng.cmd 0 11 with units := [(0, 0)], scope := 2 }, core := 0, p := 0 }
def thH : Thread := { id := 22, cmd := { eng.cmd 0 13 with record := natBytes 64 (fieldsN [(0, 15), (2, 1), (4, 1), (8, 0x5000)]) }, core := 0, p := 0 }
def thK : Thread := { id := 23, cmd := { eng.cmd 0 14 with record := recOf 0x340, seq := 23 }, core := 0, p := 0 }
def ending : State := { running with threads := [thD, thT, thH, thK] }
theorem witness_EngineEvents_ends : (∀ t ∈ [thD, thT, thH, thK], ending.threads.find? (fun u => u.id == t.id) = some t) ∧
    thD.cmd.op = 1 ∧ thD.state ≠ 1 ∧ thT.cmd.op = 11 ∧ ending.covered 0 thT.cmd = true ∧
    thH.cmd.op = 13 ∧ (ending.hlatchRun 0 thH.cmd (thH.cmd.writer 0)).2.2 = none ∧ thK.cmd.op = 14 ∧ ending.topkBefore thK = false := by
  decide +kernel

/-- Variants of the thread of channel 3: into a queue with room or without, from a page without a mapping, of rows the codec expands, with a
write of its core that its fork was to publish; a page on its way to the host. -/
def recQ : List Byte := natBytes 64 (fieldsN [(0, 1), (1, 3), (2, 1), (5, 2), (8, 0x1000), (16, 5), (24, 256), (28, 1), (32, 1)])
def recU : List Byte := natBytes 64 (fieldsN [(1, 1), (2, 1), (5, 2), (8, 0x100000), (16, 0x1800), (24, 64), (28, 1), (32, 1)])
def recX : List Byte := natBytes 64 (fieldsN [(0, 1), (1, 1), (2, 1), (3, 1), (5, 2), (8, 0x1000), (16, 0x1800), (24, 256), (28, 1), (32, 1)])
def copying (op : Nat) (r : List Byte) (q : List Row) : State :=
  let s := made ctxE { core0 with ram := recs, chans := [(3, ⟨some 6, [], 0, none⟩)] } partKv
  { s with cores := s.cores ++ [(1, { Core.reset with queues := [(1, q)] })], threads := [{ thC with cmd := { copyC with op := op, record := r } }], nextThread := 10 }
def flipped : State := { running with parts := [(0, { running.part 0 with flips := [(0, true)] })] }
theorem witness_EngineEvents_copies :
    ((copying 1 recQ []).copyAt 0 3).any (fun c => !c.2.2.isEmpty && c.1.cmd.n 1 1 == 3 && c.1.cmd.unit == 256) = true ∧
    8 ≤ (Tab.get [] ((copying 1 recQ (List.replicate 8 0)).core (5 / 4)).queues (5 % 4)).length ∧
    ((copying 2 recU []).copyAt 0 3).any (fun c => !c.2.2.isEmpty && c.1.cmd.unit == 64 &&
      ((copying 2 recU []).copyRead c.1.kept ((copying 2 recU []).pagesAt c.1 0) 0 0 (c.1.cmd.addrs recs 0).1).toOption == none) = true ∧
    ((copying 1 recX []).copyAt 0 3).any (fun c => !c.2.2.isEmpty && c.1.cmd.n 3 1 == 1 && c.1.cmd.unit == 256) = true ∧
    flipped.threadStalls thS = true ∧ running.threadStalls thS = false := by
  decide +kernel
theorem witness_EngineEvents_publication :
    ({ running with reqs := [{ id := 0, g := 0, kind := .write, line := 160, words := 1, data := [(0x5000, 9)] }] } : State).covered 0 { thS.cmd with after := 1 } = false := by
  decide +kernel
/-- The part itself is always within reach, whatever the torus. -/
theorem field_back (v lo n : Nat) : withField v lo n (field v lo n) = v := by
  have h : field v lo n * 2 ^ lo ≤ v := by
    rw [field, Nat.shiftRight_eq_div_pow]
    exact Nat.le_trans (Nat.mul_le_mul_right _ (Nat.mod_le _ _)) (Nat.div_mul_le_self v (2 ^ lo))
  have m : field v lo n % 2 ^ n = field v lo n := Nat.mod_mod _ _
  rw [withField, m, Nat.sub_add_cancel h]
theorem reach_own (s : State) : s.reach Config.chipId.toNat = true := by
  simp [State.reach, State.route, State.routeFrom, arc, field_back]
/-- A PUT not yet sent and a GET through a window of the part's own, one that is down; a TOPKR; a KVLEND that has ended; a COLL alone in
its gang, one of two, two of one rank. -/
def winO (up : Bool) : PodWindow := ⟨true, 3, Config.chipId.toNat, 1, 0, 256, 0x5010, 0, up⟩
def recP (sp : Nat) : List Byte := natBytes 64 (fieldsN [(0, sp), (8, 0x1000), (24, 256)])
def recC (rank scope : Nat) : List Byte := natBytes 64 (fieldsN [(2, scope), (4, rank), (8, 1), (16, 0x5000), (24, 0x5100)])
def collC (rank scope i : Nat) : EngCmd := { eng.cmd 0 6 with record := recC rank scope, scope := scope, b := 2, units := [(0, 0)], by_ := some (0, i) }
def thX (id : Nat) (c : EngCmd) : Thread := { id := id, cmd := c, core := 0, p := 0 }
def pods (up : Bool) (l : List Thread) : State := { made ctxE { core0 with ram := recs } { partKv with pod := [(1, some (winO up))] } with mem := memKv, threads := l, nextThread := 40 }
theorem witness_EngineEvents_transfers : (∀ up, ∀ op ∈ [4, 5], ∀ sp ∈ [0, 1],
      let t := thX 30 { eng.cmd 0 op with imm := 1, record := recP sp };
      (pods up [t]).threads.find? (fun u => u.id == t.id) = some t ∧ (pods up [t]).threadStalls t = false ∧ (pods up [t]).covered 0 t.cmd = true ∧
      t.sent = false ∧ (pods up [t]).putBefore t false = false ∧
      ((pods up [t]).engReads 0 sp ((List.range 256).map fun i => (0x1000 + i) % 2 ^ 64)).2 = none ∧
      ((pods up [t]).engWheres 0 sp ((List.range 256).map fun i => (0x1000 + i) % 2 ^ 64)).2 = none) ∧
    ((pods true []).reach (winO true).chip = true ∧ ∀ up l, Tab.get none ((pods up l).part 0).pod 1 = some (winO up) ∧ (winO up).up = up) ∧
    (let t := thX 31 { eng.cmd 0 15 with record := recOf 0x380, seq := 31 }; (pods true [t]).topkBefore t = false ∧ (pods true [t]).threadStalls t = false) ∧
    (let t := { thX 32 { eng.cmd 0 24 with a := hnd } with state := 3 }; t.cmd.op = 24 ∧ t.state ≠ 1 ∧ (pods true [t]).threadStalls t = false) := by
  refine ⟨?_, ⟨reach_own _, fun _ _ => ⟨rfl, rfl⟩⟩, by decide +kernel⟩
  decide +kernel
theorem witness_EngineEvents_collectives : let a := thX 33 (collC 0 2 0); let b := thX 34 (collC 0 4 0); let c := thX 35 (collC 1 4 1); let d := thX 36 (collC 0 4 1);
    ((pods true [a]).collPeers a = [a] ∧ (pods true [a]).collFull a [a] = true ∧ (pods true [a]).covered 0 a.cmd = true ∧ (pods true [a]).threadStalls a = false ∧
      ((pods true [a]).engReads 0 0 ((List.range 4).map fun i => (0x5000 + i) % 2 ^ 64)).2 = none ∧ a.cmd.collFmt.width / 8 = 4) ∧
    ((pods true [b]).collPeers b = [b] ∧ (pods true [b]).collFull b [b] = false) ∧
    ((pods true [b, c]).collPeers b = [b, c] ∧ (pods true [b, c]).collFull b [b, c] = true ∧ b.cmd.n 4 4 = 0 ∧ c.cmd.n 4 4 = 1) ∧
    ((pods true [b, d]).collPeers b = [b, d] ∧ (pods true [b, d]).collFull b [b, d] = true ∧ d.cmd.n 4 4 = 0) := by decide +kernel

/-- Requests about line 64 (0x2000 to 0x207F): context 0 asks, context 4 of core 1 holds the words of 0x2000 and 0x2004 or none. -/
def rq (k : ReqKind) (fwd : Bool := false) : Req :=
  { id := 3, g := 0, kind := k, line := 64, words := 3, data := [(0x2000, 9)], load := some 7, keep := true, fn := .add, off := 4, v := 5, forwarded := fwd }
def homeS (r : Req) (held : Bool) : State :=
  { made ctxE core0 part0 with
    mem := cells [(0x2000, 8, 0x1122334455667788)], reqs := [r], nextReq := 4
    loads := [{ id := 7, g := 0, dest := 261, va := 0x2000, pa := 0x2000, size := 8, known := [], asked := 1 }]
    ctxs := [(0, ctxE), (4, { Ctx.reset with owned := if held then (List.range 8).map fun i => (0x2000 + i, some ⟨3, 0⟩) else [] })]
    shrouds := [(0, some { Shroud.reset 0 with
      state := .ready, gateClosed := false, used := [10, 64], dir := [(10, some ⟨1, []⟩), (64, some ⟨2, if held then [⟨4, 3⟩] else []⟩)] })] }
theorem witness_HomeEvents : (homeS (rq .read) false).request 3 [.read] = some (rq .read) ∧ (homeS (rq .read) true).request 3 [.read] = some (rq .read) ∧
    (homeS (rq .read) false).heldElsewhere 0 64 = 0 ∧ (homeS (rq .read) true).heldElsewhere 0 64 = 3 ∧ (homeS (rq .read) true).isBad 0 64 = false ∧
    ((((homeS (rq .wiRead) true).flushTo 0 0).evictLine 0 64 (true && !(homeS (rq .wiRead) true).isBad 0 64)).isBad 0 64) = false ∧ (rq .read).forwarded = false ∧ (rq .read).g / 4 < 32 ∧
    (homeS (rq .wiRead) false).request 3 [.wiRead] = some (rq .wiRead) ∧ (homeS (rq .wiRead) true).request 3 [.wiRead] = some (rq .wiRead) ∧
    (homeS (rq .read true) true).request 3 [.read, .wiRead] = some (rq .read true) ∧
    (homeS (rq .write) true).request 3 [.write, .atom] = some (rq .write) ∧ (homeS (rq .atom) false).request 3 [.write, .atom] = some (rq .atom) ∧
    (homeS (rq .own) true).request 3 [.own] = some (rq .own) ∧ (homeS (rq .own) true).poisonOf 0 64 = none ∧
    (((homeS (rq .own) true).ctx 4).ownedIn 64 0xFFFFFFFF).length = 8 := by decide +kernel
/-- An L2 line clean or dirty, a pool page, a request that a pool device does not answer. -/
def l2S (dirty : Bool) : State :=
  { solo with shrouds := [(0, some { Shroud.reset 0 with state := .ready, gateClosed := false, summary := [(5, 1)], l2 := [(64, some ⟨dirty, 0, true, false⟩)] })] }
def poolLine : Nat := poolBase / 128
def poolS : State := { solo with reqs := [{ rq .read with line := poolLine }], loads := [{ load5 with g := 0 }] }
theorem witness_DirectoryAndErrorEvents : (l2S false).homeShroud ((l2S false).linePart 64) (64 * 128) = 0 ∧
    (23 : BitVec 8).toNat < 24 ∧ ((l2S false).shroud 0).qways = [] ∧ (l2S false).retiring = [] ∧
    ({ l2S true with retiring := [⟨64, 23, [0], []⟩] } : State).retiring.find? (fun r => r.line == 64) = some ⟨64, 23, [0], []⟩ ∧
    Tab.get none ((l2S false).shroud 0).l2 64 = some ⟨false, 0, true, false⟩ ∧ Tab.get none ((l2S true).shroud 0).l2 64 = some ⟨true, 0, true, false⟩ ∧
    (Tab.get 0 ((l2S true).shroud 0).summary 5).getLsbD 0 = true ∧ (l2S true).inPart ((l2S true).shroud 0).partFirst 0 = true ∧
    poolBase ≤ poolLine * 128 ∧ poolLine * 128 < hostBase ∧
    poolS.reqs.find? (fun q => q.id == 3 && decide (poolBase ≤ q.line * 128) && decide (q.line * 128 < hostBase)) = some { rq .read with line := poolLine } ∧
    (rq .read).load = some 7 := by decide +kernel

/-- The spindle: launch 0 runs on contexts 0 to 3 of core 0 or on context 0 alone, launch 1 of a gang of one waits on core 0, passed over or not,
launch 2 is held with a dependence on the object at 0x6000 that has failed; a record at 0x7000 submitted with a good shape, one at 0x7080 with none. -/
def recL (key mask : Nat) : Nat := fieldsN [(16, 1), (20, 1), (24, 1), (28, key), (32, 4), (33, 1), (36, mask), (72, 0x6020)]
def spinL : List Launch :=
  [{ pl with record := natBytes 128 (recL 0xFF000000 1), next := 4, total := 4, outstanding := 4 },
    { pl with id := 1, record := natBytes 128 (recL 0x01000000 1), stage := .eligible, next := 0, total := 1, outstanding := 1, passed := some 0 },
    { pl with id := 2, record := natBytes 128 (recL 0 1 + 256 ^ 35 + 0x6000 * 256 ^ 40), stage := .held, next := 0, total := 0, outstanding := 0 }]
def spin (full : Bool) (t : Word) : State :=
  { made ctx0 core0 { part0 with spnCtl := 0x1234000100000001 } with
    ctxs := if full then (List.range 4).map fun g => (g, { ctx0 with unit := some ⟨0, g, g, false⟩ }) else [(0, ctx0)]
    launches := spinL, timebase := t, nextThread := 5
    mem := cells [(0x6000, 8, 4), (0x7000, 128, recL 0 1)]
    threads := [{ id := 3, cmd := { op := 9, g := 0, a := 0x7000, scope := 4 }, core := 0, p := 0 },
      { id := 4, cmd := { op := 9, g := 0, a := 0x7080, scope := 4 }, core := 0, p := 0 }] }
def fresh0 : Cand := ⟨0, 0, []⟩
def launchOf (s : State) (i : Nat) : Launch := (s.launches[i]?).getD pl
theorem witness_SpindleEvents : (spin true 0).launches[1]? = some (launchOf (spin true 0) 1) ∧
    (((spin true 0).threads.find? (fun u => u.id == 3 && u.cmd.op == 9)).map (fun t => (t.core, t.cmd.a)) = some (0, 0x7000) ∧
      ((spin true 0).threads.find? (fun u => u.id == 4 && u.cmd.op == 9)).map (fun t => (t.core, t.cmd.a)) = some (0, 0x7080) ∧
      (spin true 0).covered 0 { op := 9, g := 0, a := 0x7000, scope := 4 } = true ∧ (spin true 0).partOpen 0 = true) ∧
    ((spin true 0).recordStatus { pl with record := (spin true 0).loadVa 0 0x7000 128 } = 1 ∧
      (spin true 0).recordStatus { pl with record := (spin true 0).loadVa 0 0x7080 128 } = 3) ∧
    ((launchOf (spin true 0) 2).stage = .held ∧ (launchOf (spin true 0) 2).ndeps = 1 ∧ (launchOf (spin true 0) 2).failed = none ∧ (launchOf (spin true 0) 2).met = [] ∧
      depFails ((launchOf (spin true 0) 2).need 0) ((spin true 0).load64 0 ((launchOf (spin true 0) 2).dep 0)) = true ∧
      depMet ((launchOf (spin true 0) 2).need 0) (({ spin true 0 with mem := cells [(0x6000, 8, 2)] } : State).load64 0 ((launchOf (spin true 0) 2).dep 0)) = true) ∧
    ((spin true 0).bestCand 1 = some (16777216, fresh0) ∧ (spin false 0).bestCand 1 = some (16777216, fresh0) ∧ ((spin true 0).part 0).migration = 0 ∧
      (spin true 0).mayGo 0 1 16777216 = true ∧ (spin false 0).mayGo 0 1 16777216 = true ∧
      ((spin false 0).placeGang 1 16777216 fresh0).isSome = true ∧ ((spin true 0).placeGang 1 16777216 fresh0).isNone = true) ∧
    ((launchOf (spin true 0) 1).passed = some 0 ∧ (spin true 0).patience 0 = 1000 ∧ ((spin true 1000).timebase - 0).toNat = 1000 ∧
      ((spin true 999).timebase - 0).toNat < 1000) ∧
    (((spin true 0).part 0).spnCtl.toNat % 256 = 1 ∧ (launchOf (spin true 0) 1).take = false ∧ (spin true 0).groups (launchOf (spin true 0) 1) = [[0]] ∧
      (spin true 0).victims 1 16777216 1 1 fresh0 [0] = some [⟨0, 3, [3]⟩]) ∧
    (launchOf (spin true 0) 0).stage = .running ∧
    ((0x12340000000000E0 : Word).toNat / 2 ^ 48 = ((spin true 0).part 0).spnCtl.toNat / 2 ^ 48 ∧
      ((spin true 0).resolve 0 (BitVec.ofInt 64 (signExt (0x12340000000000E0 % 2 ^ 48 * 128) 55)) 1 .read).toOption = some 0x7000 ∧
      (0x12350000000000E0 : Word).toNat / 2 ^ 48 ≠ ((spin true 0).part 0).spnCtl.toNat / 2 ^ 48) := by decide +kernel

/-- A lend of page 0 of sequence 1 through window 1; a block of tier 1 whose promotion is asked for; a pool that lends frames 4 to 6. -/
def thL : Thread := { id := 3, cmd := { eng.cmd 0 24 with a := hnd, record := natBytes 32 (fieldsN [(0, 2 ^ 26 + 65), (8, 1), (10, 4)]) }, core := 0, p := 0 }
def winL : PodWindow := ⟨true, 3, 4, 1, 0, 256, 0x5010, 0, true⟩
def exportL : PodWindow := ⟨false, 3, 4, 2, 0x5100, 0x40000, 0x5018, 0, true⟩
def tier1Ref : Nat := 2 ^ 26
def memT1 : Tab Byte := cells [(0x2040, 1, 1), (0x2041, 1, 1), (0x2044, 4, 4), (0x2048, 4, 4), (0x204C, 4, 1), (0x2050, 8, 0x2200), (0x2058, 8, 0x2300),
  (0x2064, 4, 4), (0x2200, 8, 2 ^ 63 + 2 ^ 60), (0x3800, 8, 2 ^ 48)]
def stored (m : Tab Byte) : State :=
  { made ctxE core0 { partKv with
      stores := [(1, some storeD)], pod := [(1, some winL), (2, some exportL)], wants := [(1, tier1Ref)]
      lendPools := [(2, some ⟨65536, [4, 5], [(6, 4)], false⟩)] } with
    mem := m, threads := [thL], nextThread := 4 }
theorem witness_StoreEvents : (stored memKv).threads.find? (fun u => u.id == 3 && u.cmd.op == 24 && u.state == 1) = some thL ∧ thL.p = 0 ∧
    ((stored memKv).handle 0 thL.cmd.a.toNat = some (1, storeD, 1) ∧ thL.cmd.n 4 4 < (stored memKv).seqN 0 storeD 1 12 4 ∧
      Tab.get none ((stored memKv).part 0).pod (thL.cmd.n 8 2) = some winL ∧ winL.up = true ∧
      peValid ((stored memKv).pageE 0 storeD 1 0) = true ∧ peLoc ((stored memKv).pageE 0 storeD 1 0) = 0 ∧
      ((stored memKv).blockOf 0 storeD ((stored memKv).pageE 0 storeD 1 0)).map ((stored memKv).refs 0 storeD) = some 1) ∧
    ((stored memT1).storeOf 0 1 = some storeD ∧ (stored memT1).refs 0 storeD (storeD.blkOfRef tier1Ref) = 1 ∧
      (storeD.blkOfRef tier1Ref).far = none ∧ (storeD.blkOfRef tier1Ref).tier = 1 ∧ ((stored memT1).part 0).wants = [(1, tier1Ref)] ∧
      ((stored memT1).promoteBlock 0 1 (storeD.blkOfRef tier1Ref)).isSome = true ∧
      ((stored memT1).meta1 0 storeD (storeD.blkOfRef tier1Ref)).testBit 63 = false) ∧
    storeD.ladderOn = true ∧ ({ stored memKv with threads := [] } : State).storeBusy 0 1 = false ∧ (stored memKv).storeBusy 0 1 = true ∧
    (Tab.get none ((stored memKv).part 0).lendPools 2 = some ⟨65536, [4, 5], [(6, 4)], false⟩ ∧
      (stored memKv).exportFor 0 2 4 1 = some exportL) := by decide +kernel

theorem witness_SpindleEvents_more : (∀ t ∈ (spin true 0).threads, (spin true 0).threadStalls t = false) ∧ (spin true 0).mboxExists (.vf 0) = true ∧
    ((spin true 0).part 0).migration < 2 ∧ (∀ d < (launchOf (spin true 0) 2).ndeps,
      depMet ((launchOf (spin true 0) 2).need d) (({ spin true 0 with mem := cells [(0x6000, 8, 2)] } : State).load64 0 ((launchOf (spin true 0) 2).dep d)) = true) := by
  decide +kernel
/-- Blocks that a lend can read, or cannot for want of a page. -/
theorem witness_StoreEvents_read : thL.cmd.lost = false ∧ (stored memKv).reqs = [] ∧ (stored memKv).blkTrouble 0 storeD (storeD.blkOfRef 0) = none ∧
    (let s := stored memKv; ({ s with parts := [(0, { s.part 0 with pages := [(0, some page0)] })] } : State).blkTrouble 0 storeD (storeD.blkOfRef 0)).isSome = true := by
  decide +kernel
/-- Moves: a forwarded block that an entry names, or none does; a borrowed frame in use, or on its way home; a wanted block of tier 1; the
ladder's step to tier 1. -/
def memAt (l : List (Nat × Byte)) : Tab Byte := l.foldl (fun m e => Mem.write m e.1 e.2) memKv
def storeB : Store := { storeD with lends := [(5, 4, 3, 65536)] }
def storeM (t : Store) (m : Tab Byte) : State := let s := stored m; { s with parts := [(0, { s.part 0 with stores := [(1, some t)] })] }
def farRef : Nat := 2 ^ 27 + 5
def farMem (loc : Byte) : Tab Byte := memAt [(0x2200, 5), (0x2204, 0x40), (0x2207, 0x80 ||| loc), (0x2816, 1)]
def storeL : Store := storeD.put 210 2 1
def fullMem : Tab Byte := memAt [(0x14000, 15), (0x14040, 15)]
theorem witness_StoreEvents_moves : (let s := stored (memAt [(0x300F, 0x80)]); s.fwd 0 storeD (storeD.blkOfRef 0) = true ∧
      (s.namers 0 storeD (storeD.blkOfRef 0)).length = 1) ∧
    (let s := stored (memAt [(0x303F, 0x80)]); s.fwd 0 storeD (storeD.blkOfRef 3) = true ∧ s.namers 0 storeD (storeD.blkOfRef 3) = []) ∧
    (let s := storeM storeB (farMem 0x20); let b := storeB.blkOfRef farRef; s.storeOf 0 1 = some storeB ∧ b.far ≠ none ∧ s.fwd 0 storeB b = false ∧
      s.refs 0 storeB b ≠ 0 ∧ storeB.moves = [] ∧ (s.namers 0 storeB b).filter (fun e => peLoc e.2.2 != 3) ≠ []) ∧
    (let s := storeM storeB (farMem 0x30); let b := storeB.blkOfRef farRef; s.fwd 0 storeB b = false ∧ s.refs 0 storeB b ≠ 0 ∧
      (s.namers 0 storeB b).filter (fun e => peLoc e.2.2 != 3) = [] ∧ (s.promoteCommit 0 1 b).isSome = true) ∧
    ((stored memT1).fwd 0 storeD (storeD.blkOfRef tier1Ref) = false ∧ ((stored memT1).promoteCommit 0 1 (storeD.blkOfRef tier1Ref)).isSome = true) ∧
    (let s := storeM storeL fullMem; let b := storeL.blkOfRef 0; s.storeOf 0 1 = some storeL ∧ s.fwd 0 storeL b = false ∧ s.refs 0 storeL b ≠ 0 ∧
      ((s.part 0).wants.contains (1, 0)) = false ∧ storeL.ladderDue = true ∧ s.movable 0 storeL b = true ∧
      storeL.ladderStep (field (s.meta0 0 storeL b) 45 3) b = some 3 ∧ (s.popBlock (ctl 0) 1 3 (field (s.meta0 0 storeL b) 45 3)).isSome = true) := by
  decide +kernel

/-- Shrouds 2 and 3 off as a set of two, or both in a state of theirs; partition 0 open. -/
def sets (st : ShState) : State :=
  { solo with shrouds := [(0, some { Shroud.reset 0 with state := .ready, gateClosed := false }),
      (2, some { Shroud.reset 2 with partFirst := 2, partLog2 := 1, state := st }), (3, some { Shroud.reset 3 with partFirst := 2, partLog2 := 1, state := st })] }
theorem witness_PartitionEvents : (sets .off).boot = 0xFF ∧ (sets .off).stoppedByHeat = false ∧ ((sets .off).shroud 3).partFirst % 2 ^ ((sets .off).shroud 3).partLog2 = 0 ∧
    (sets .off).setOf 3 = [2, 3] ∧ ((sets .off).shroud 2).state = .off ∧ ((sets .off).shroud 3).state = .off ∧
    ((sets .off).shroud 2).partFirst = 2 ∧ ((sets .off).shroud 2).partLog2 = 1 ∧ ((sets .ready).shroud 2).state = .ready ∧
    ((sets .ready).shroud 3).partFirst = 2 ∧ ((sets .draining).shroud 3).state = .draining ∧ ((sets .zeroising).shroud 3).state = .zeroising ∧
    ((2 ^ 39 - 1 : Nat) < 2 ^ 39 ∧ solo.partOpen 0 = true ∧ page0.frame < 2 ^ 35 ∧ page0.frame ∉ solo.retired ∧
      solo.underMap 0 0 page0 = false ∧ ¬({ page0 with frame := 2 ^ 35 } : PageMap).frame < 2 ^ 35 ∧ dirty.underMap 0 0 page0 = true) := by decide +kernel

/-- A shroud that is ready beside its set's first; a partition that a function-level reset meets. -/
theorem witness_PartitionEvents_more : (sets .ready).mboxExists .pf = true ∧ ((sets .ready).shroud 3).state = .ready ∧ ((sets .ready).shroud 2).state = .ready ∧
    ((sets .ready).shroud 2).partFirst = 2 ∧ dirty.partOpen 0 = true := by decide +kernel
/-- A mailbox whose command block in host memory is n. -/
def boxed (n : Nat) (f : Part → Part) : State := { made ctx0 core0 (f partKv) with mem := cells [(hostBase, 512, n)] }
/-- The fields of a block, read back as the model reads them. -/
def fld (n off len : Nat) : Nat := blkN (natBytes 512 n) off len
def cfgBlk : Nat := fieldsN [(0, 63)] + 256 ^ 64 * fieldsN [(0, 1), (1, 4), (2, 1), (4, 64), (6, 1), (8, 0x2000), (16, 8)]
def podBlk : Nat := fieldsN [(0, 1023)] + 256 ^ 64 * fieldsN [(0, 1), (2, 4), (4, 1), (16, 256), (24, 0x5010)]
theorem test_mailFree (n : Nat) : (boxed n id).mailFree (.vf 0) ∧ (boxed n id).mailFree .pf := by
  refine ⟨⟨?_, ?_, ?_⟩, ⟨?_, ?_, ?_⟩⟩ <;> first | rfl | (intro h; cases h)
theorem witness_PartitionMailboxCommands_stores : (boxed cfgBlk id).block (.vf 0) = natBytes 512 cfgBlk ∧ fld cfgBlk 0 1 = 63 ∧ (boxed cfgBlk id).storeOf 0 63 = none ∧
    ({ desc := ((natBytes 512 cfgBlk).drop 64).take 256, rsv := [], lends := [], moves := [] } : Store).descOk = true ∧
    onlyFields (natBytes 512 cfgBlk) [(0, 1), (64, 256)] = true ∧ onlyFields (natBytes 512 63) [(0, 1)] = true ∧
    ((boxed podBlk id).block (.vf 0) = natBytes 512 podBlk ∧ fld podBlk 0 2 = 1023 ∧ podRecOk (((natBytes 512 podBlk).drop 64).take 64) = true ∧
      Tab.get none ((boxed podBlk id).part 0).pod 1023 = none ∧ onlyFields (natBytes 512 podBlk) [(0, 2), (64, 64)] = true ∧
      onlyFields (natBytes 512 1023) [(0, 2)] = true) := by decide +kernel
theorem witness_PartitionMailboxCommands_registers :
    (fld 0x12340000000000FF 0 8 / 2 ^ 8 % 2 ^ 24 = 0 ∧ onlyFields (natBytes 512 0x12340000000000FF) [(0, 8)] = true) ∧
    (let n := fieldsN [(0, 0x1000), (8, 2 ^ 20), (16, 0x2008)];
      fld n 0 8 % 64 = 0 ∧ fld n 16 8 % 8 = 0 ∧ fld n 8 4 = 2 ^ 20 ∧ onlyFields (natBytes 512 n) [(0, 8), (8, 4), (16, 8)] = true) ∧
    (let n := fieldsN [(0, 0x10000), (8, 21760)];
      fld n 0 8 % 256 = 0 ∧ fld n 8 8 % 256 = 0 ∧ fld n 8 8 = 21760 ∧ onlyFields (natBytes 512 n) [(0, 8), (8, 8)] = true) ∧
    (let n := fieldsN [(1, 1), (2, 3), (3, 1), (4, 7)];
      fld n 1 1 = 1 ∧ (boxed n id).storeOf 0 1 = some storeD ∧ fld n 0 1 = 0 ∧ fld n 2 1 ≤ 5 ∧ fld n 3 1 ≤ 1 ∧ fld n 4 4 < storeD.pool (fld n 2 1) 16 4 ∧
      onlyFields (natBytes 512 n) [(0, 8)] = true) ∧
    (let n := fieldsN [(0, 1), (1, 1), (3, 7), (4, 7)];
      fld n 0 1 = 1 ∧ fld n 2 1 = 0 ∧ fld n 3 1 = 7 ∧ fld n 4 4 < storeD.slots ∧ onlyFields (natBytes 512 n) [(0, 8)] = true) ∧
    (let n := fieldsN [(0, 15), (8, 0x2000), (16, 1)];
      6 ≤ fld n 0 1 ∧ fld n 0 1 ≤ 15 ∧ 1 ≤ fld n 16 8 ∧ fld n 16 8 ≤ 2 ^ 32 ∧ onlyFields (natBytes 512 n) [(0, 1), (8, 8), (16, 8)] = true) ∧
    (0xFF : BitVec 8).toNat ∉ vfCommands ∧ (0xFF : BitVec 8).toNat ∉ pfCommands := by decide +kernel

def exporting (x : Part) : Part := { x with pod := [(2, some ⟨false, 3, 4, 2, 0x10000, 0x10000, 0x5018, 0, true⟩)] }
def lending (x : Part) : Part := { exporting x with lendPools := [(2, some ⟨65536, [], [(6, 4)], false⟩)] }
def winBlk : Nat := fieldsN [(1, 63), (32, 0x10000), (40, 0x20000), (48, 3), (50, 1), (51, 0xFF)]
theorem witness_PackageMailboxCommands : fld 4095 0 2 < 4096 ∧ onlyFields (natBytes 512 4095) [(0, 2)] = true ∧
    onlyFields (natBytes 512 (fieldsN [(0, 0x1000), (8, 64)])) [(0, 8), (8, 8)] = true ∧ (boxed 0 id).partOpen 0 = true ∧
    (fld (fieldsN [(1, 1)]) 0 1 = 0 ∧ fld (fieldsN [(1, 1)]) 1 1 = 1 ∧ onlyFields (natBytes 512 (fieldsN [(1, 1)])) [(0, 2)] = true) ∧
    (let n := fieldsN [(2, 2), (4, 65536), (8, 1)];
      fld n 0 1 = 0 ∧ fld n 4 4 = 65536 ∧ fld n 8 4 = 1 ∧ fld n 2 2 = 2 ∧ onlyFields (natBytes 512 n) [(0, 1), (2, 2), (4, 4), (8, 4)] = true ∧
      (Tab.get none ((boxed n exporting).part 0).pod 2).map (fun w => (w.imp, w.length)) = some (false, 65536) ∧
      Tab.get none ((boxed n exporting).part 0).lendPools 2 = none) ∧
    ((boxed 0 lending).part 0).lendPools = [(2, some ⟨65536, [], [(6, 4)], false⟩)] ∧
    (fld winBlk 1 1 = 63 ∧ fld winBlk 50 1 = 1 ∧ onlyFields (natBytes 512 winBlk) [(0, 1), (1, 1), (32, 21)] = true ∧
      (windowOf (natBytes 512 winBlk) none).base = 0x10000 ∧ (windowOf (natBytes 512 winBlk) none).length = 0x20000 ∧
      0x10000 + 0x20000 ≤ (0 + (boxed winBlk id).partSize 0) * 2 ^ 36) ∧
    (let n := fieldsN [(8, 0x3000)];
      ((boxed n id).part 0).migration = 0 ∧ fld n 8 8 % 4096 = 0 ∧ onlyFields (natBytes 512 n) [(0, 1), (8, 8)] = true) ∧
    (let n := fieldsN [(8, 0x3000), (16, 0x1000)];
      ((boxed n fun x => { x with migration := 1 }).part 0).migration = 1 ∧ fld n 8 8 % 4096 = 0 ∧ fld n 16 8 % 4096 = 0 ∧
      onlyFields (natBytes 512 n) [(0, 1), (8, 8), (16, 8)] = true) ∧
    ((boxed 0 fun x => { x with migration := 2 }).part 0).migration = 2 ∧
    (let s : State := { boxed (fieldsN [(8, 0x3000)]) id with images := [(0x3000, some ⟨0, 0, [], Part.reset, [], [], []⟩)] };
      (s.part 0).migration = 0 ∧ (s.imageAt (fld (fieldsN [(8, 0x3000)]) 8 8) (fld (fieldsN [(8, 0x3000)]) 16 8)).map (fun i => i.log2) = some ((s.shroud 0).partLog2)) := by
  decide +kernel
theorem test_mailFree_pf (n : Nat) (f : Part → Part) : (boxed n f).mailFree .pf := by
  refine ⟨?_, ?_, ?_⟩ <;> first | rfl | (intro h; cases h)
/-- A save of a paused partition whose buffer the free length of the saved state fits, whatever that length is. -/
theorem witness_PackageMailboxCommands_save : ∃ n, (Config.freeWord 0).toNat % 2 ^ 32 = n ∧ n * 4096 ≤ (2 ^ 44 : Nat) ∧
    fld (fieldsN [(8, 0x3000), (16, 2 ^ 44)]) 16 8 = 2 ^ 44 ∧ (boxed 0 fun x => { x with migration := 2 }).freeCtr = 0 :=
  ⟨_, rfl, by omega, by decide +kernel, rfl⟩

/-- Host memory in bias of the host, of the device, a flip under way to the host; a paused partition at rest. -/
def biased (host : Bool) (fl : List (Nat × Bool)) : State := made ctx0 core0 { partKv with hostBias := if host then [5] else [], flips := fl }
def atRest : State := { boxed 0 (fun x => { x with migration := 2 }) with ctxs := [], mail := { Mail.reset with state := 1, cmd := 0x22 } }
/-- A copy stands inside a piece of 4 KiB that it has begun, with page 1 for its source. -/
def recH : List Byte := natBytes 64 (fieldsN [(1, 1), (2, 1), (5, 2), (8, 0x10100), (16, 0x1800), (24, 64), (28, 1), (32, 1)])
def inPiece : State := { copying 1 recH [] with threads := [{ thC with cmd := { copyC with record := recH }, piece := some 0, pages := partKv.pages }] }
theorem witness_HostEvents : solo.ioFailed = false ∧ solo.memFailed = false ∧ (solo.part 0).hostWaits = [] ∧ (solo.part 0).flips = [] ∧ inPiece.copyInside 1 = true ∧
    (inPiece.part 0).hostBias.contains 1 = false ∧ solo.boot ≠ 0 ∧ (0xFFF8 : BitVec 16).toNat % 8 = 0 ∧
    solo.mboxExists .pf = true ∧ solo.mboxExists (.vf 0) = true ∧ (solo.ring .pf).held = [] ∧ (solo.ring (.vf 0)).held = [] ∧
    solo.partOpen 0 = true ∧ ((biased false []).part 0).biasReg.toNat.testBit 2 = false ∧ (0 : BitVec 23).toNat < solo.partSize 0 * 2 ^ 20 ∧
    (2 ^ 20 - 1 : BitVec 23).toNat < solo.partSize 0 * 2 ^ 20 ∧
    ((biased false []).part 0).hostBias.contains 5 = false ∧ ((biased true []).part 0).hostBias.contains 5 = true ∧
    ((biased false [(5, true)]).part 0).flips.find? (fun f => f.1 == 5) = some (5, true) ∧ (biased false [(5, true)]).copyInside 5 = false ∧
    ((biased true []).part 0).flips = [] ∧ 65535 + ([0] : List Byte).length ≤ 65536 ∧ solo.powered = true ∧
    atRest.mail.state = 1 ∧ atRest.mail.cmd = 0x22 ∧ atRest.pauseDone atRest.mail.part = true := by decide +kernel

/-- Port 5 up with seven failures in a row, a session of the physical function, a stream with a receive key that runs. -/
def linked : State :=
  { solo with
    chipMaster := Config.chipId + 1, ports := [(5, { Port.reset with up := true, fails := 7, next := 9 })], spdm := [(0, true)]
    ide := [(0, some ⟨true, false, [(false, true, 3)], some true, some true⟩)] }
theorem witness_LinkEvents : ((5 : BitVec 3).toNat < 6 ∧ (linked.port 5).up = true ∧ (linked.port 5).fails < 8 ∧ (linked.port 5).next = 9) ∧
    linked.timebase.toNat < (1 : Word).toNat ∧ linked.fnExists 0 = true ∧ linked.fnExists 1 = true ∧ linked.boot = 0xFF ∧
    (linked.spdm.any fun e => e.1 == 0) = true ∧ (linked.ideOf (.io 0)).keys = [(false, true, 3)] ∧ (linked.ideOf (.io 0)).rxSet = some true ∧
    (linked.ideOf (.io 0)).secure = true := by decide +kernel
theorem witness_LinkEvents_master : linked.chipMaster ≠ Config.chipId := by
  show Config.chipId + 1 ≠ Config.chipId
  bv_omega
/-- A chip beside this one in the second dimension: its link in the first is neither end of this chip's. -/
theorem far_link : let l := portLink (Config.chipId ^^^ 0x010).toNat 0;
    (Config.chipId ^^^ 0x010) ≠ Config.chipId ∧ l.1 ≠ Config.chipId.toNat ∧ nextChip l.1 l.2 true ≠ Config.chipId.toNat ∧ linked.linkUp l = true := by
  have h1 : (Config.chipId ^^^ 0x010).toNat / 16 % 2 ≠ Config.chipId.toNat / 16 % 2 := by
    have : ∀ c : BitVec 12, (c ^^^ 0x010).toNat / 16 % 2 ≠ c.toNat / 16 % 2 := by decide +kernel
    exact this _
  have h2 (v x : Nat) : withField v 0 4 x / 16 = v / 16 := by simp [withField, field]; omega
  have h3 (v : Nat) : nextChip v 0 true / 16 = v / 16 := h2 _ _
  have h4 : nextChip (Config.chipId ^^^ 0x010).toNat 0 true ≠ Config.chipId.toNat := fun h => h1 (by rw [← h3, h])
  have h5 : (Config.chipId ^^^ 0x010).toNat ≠ Config.chipId.toNat := fun h => h1 (by rw [h])
  refine ⟨fun h => h5 (by rw [h]), h5, h4, ?_⟩
  show (if (Config.chipId ^^^ 0x010).toNat = Config.chipId.toNat then _ else if nextChip (Config.chipId ^^^ 0x010).toNat 0 true = Config.chipId.toNat then _ else _) = true
  rw [if_neg h5, if_neg h4]
  rfl
theorem witness_PowerEvents_maps : mapsOk (idRows.map (·.toNat)) (idCols.map (·.toNat)) 391 = true ∧ (0xFFFFFFFE : BitVec 32) ≠ 0xFFFFFFFF ∧
    solo.powered = true := by decide +kernel
/-- A package before bring-up, one that is up; powers and temperatures at and past their limits. -/
theorem witness_PowerEvents : ¬(State.reset.powered = true ∧ State.reset.boot ≠ 0) ∧ (0 : BitVec 32) ≠ 0xFFFFFFFF ∧ solo.powered = true ∧
    solo.plimit.toNat < (2201 : BitVec 16).toNat ∧ (2200 : BitVec 16).toNat ≤ solo.plimit.toNat ∧ 105 ≤ (105 : BitVec 8).toNat ∧ 120 ≤ (120 : BitVec 8).toNat ∧
    (104 : BitVec 8).toNat < 105 := by decide

/-! ### Values the spec works out -/

/-- R48: FP32 60 000 to E5M2, 100 000 to E5M2 with and without .inf, 500 to E4M3; I32 100 000 to FP16 with and without .inf. -/
theorem test_conversions : cvtElem .fp32 .e5m2 false 0x476A6000 = (0x7B, fNx) ∧ cvtElem .fp32 .e5m2 true 0x476A6000 = (0x7B, fNx) ∧
    cvtElem .fp32 .e5m2 false 0x47C35000 = (0x7B, fSat ||| fNx) ∧ cvtElem .fp32 .e5m2 true 0x47C35000 = (0x7C, fOf ||| fNx) ∧
    cvtElem .fp32 .e4m3 false 0x43FA0000 = (0x7E, fSat ||| fNx) ∧ cvtElem .i32 .fp16 false 100000 = (0x7BFF, fSat ||| fNx) ∧
    cvtElem .i32 .fp16 true 100000 = (0x7C00, fOf ||| fNx) := by decide +kernel
/-- R53: RSQ(0.25) is 2.0. R67: 2^24, 1, 1 and zeros sum to 2^24 + 4 in FP32. -/
theorem test_rsq : (rsq 0x3E800000).1 = 0x40000000 := by decide +kernel
theorem test_sum : (reduce .fp32 (addLane .fp32) ([0x4B800000, 0x3F800000, 0x3F800000] ++ List.replicate 61 0)).1.getLastD 0 = 0x4B800002 := by decide +kernel
/-- R112: VABD.I8 of −128 and 127. R113: VSUBS.N8 of 3 and 5, VADDS.I16 of 30 000 and 10 000. -/
theorem test_lanes : (abdLane .i8 0x80 0x7F).1 = 0xFF ∧ (satLane .n8 (fun x y => x - y) 3 5).1 = 0 ∧
    (satLane .i16 (fun x y => x + y) 30000 10000).1 = 0x7FFF := by decide +kernel
/-- R57: the worked block of SX4. -/
theorem test_sx4 : (quantSX 4 ([FV.fin false 3 1, .fin true 5 4, .fin false 7 16, .fin false 5 16] ++ List.replicate 12 (.fin false 0 1))).1 =
    bytesNat [0x80, 0xFC, 0xAC, 0x8A, 0, 0, 0, 0, 0, 0, 0, 0] := by decide +kernel
/-- R47: what division by zero, and the one quotient that does not fit, give. -/
theorem test_division : divS 64 7 0 = 2 ^ 63 ∧ divS 64 (2 ^ 63) (2 ^ 64 - 1) = 2 ^ 63 ∧ remS 64 7 0 = 7 ∧ divN 64 7 0 = 2 ^ 64 - 1 ∧ remN 7 0 = 7 := by
  decide +kernel
/-- R298: the record at 0x12_3456_7880 under key 0x5A3C. -/
theorem test_window_store : BitVec.ofInt 64 (signExt (0x5A3C00002468ACF1 % 2 ^ 48 * 128) 55) = 0x1234567880 ∧ 0x5A3C00002468ACF1 / 2 ^ 48 = 0x5A3C := by
  decide +kernel
/-- What holds of the next state, if there is one. -/
def after (o : Host.Outcome State Fault Refusal) (p : State → Bool) : Bool := match o with
  | .next t => p t
  | .fault _ | .refused _ => false
/-- One step from reset with ADD s3, s1, s2 placed: the pc moves on, the result is due at the next step, the turn passes. -/
theorem test_step_add : after (step (State.reset.withFetchWord 56 (0x00430420 * 2 ^ 32))) (fun t => decide ((t.ctx 0).regs.pc = 32) &&
    decide (((t.ctx 0).flights.map fun f => (f.kind, f.dest, f.remain)) = [(3, 3, 0)]) && t.turn == 1) = true := by decide +kernel
/-- An opcode that the slot has not raises ILLEGAL_OP; with no handler the unit ends. -/
theorem test_step_illegal : after (step (State.reset.withFetchWord 64 (0x0FC00000 * 2 ^ 32))) (fun t => (t.ctx 0).unit.isNone) = true := by
  decide +kernel
/-- A memory keeps its form: writing what an unlisted byte reads as takes the entry away (log entry 2). -/
theorem test_memory : Mem.write (Mem.write [] 5 9) 5 0 = [] ∧ Mem.writeN [] 0x10 4 0x01000200 = [(0x11, 2), (0x13, 1)] := by decide +kernel


end Sys2Proof.Tests
end

/-! ### Operations with register results, each alone in its bundle -/

namespace Sys2Proof.Machine

/-- Two filters of a list of keys are done in either order. -/
theorem filter_filter_swap (p q : Nat → Bool) (l : List Nat) : (l.filter p).filter q = (l.filter q).filter p := by
  rw [List.filter_filter, List.filter_filter]
  exact List.filter_congr fun _ _ => Bool.and_comm ..

/-- Leaving keys out and dropping repeats are done in either order. -/
theorem eraseDups_filter (p : Nat → Bool) (l : List Nat) : (l.filter p).eraseDups = l.eraseDups.filter p := by
  match l with
  | [] => rfl
  | a :: as =>
    have ih := eraseDups_filter p (as.filter fun b => !b == a)
    have hcomm : (as.filter p).filter (fun b => !b == a) = (as.filter fun b => !b == a).filter p := filter_filter_swap ..
    by_cases ha : p a = true
    · rw [List.filter_cons_of_pos ha, List.eraseDups_cons, List.eraseDups_cons, List.filter_cons_of_pos ha, hcomm, ih]
    · have hout : as.filter p = (as.filter fun b => !b == a).filter p := by
        rw [← hcomm, eq_comm, List.filter_eq_self]
        intro b hb
        have : b ≠ a := fun h => ha (h ▸ (List.mem_filter.mp hb).2)
        simpa using this
      rw [List.filter_cons_of_neg ha, List.eraseDups_cons, List.filter_cons_of_neg ha, hout, ih]
termination_by l.length
decreasing_by exact Nat.lt_succ_of_le (List.length_filter_le ..)

/-- Codes whose rows are read without a conflict freeze no bundle (R20). -/
theorem State.portsFree.noFreeze {s : State} {g : Nat} {codes : List (BitVec 6)} (h : s.portsFree g codes) (slot ctl : Nat) :
    (s.core (g / 4)).thaw = true ∨
    ∀ b < 6, (((((envOf s g slot ctl).rowKeys codes).filter fun r => decide (r < 192)).eraseDups).filter
      fun r => bankOf r == b).length ≤ 1 := by
  refine h.imp_right fun h b hb => ?_
  rw [eraseDups_filter, filter_filter_swap]
  exact Nat.le_trans (List.length_filter_le ..) (h b hb)

@[simp] theorem Env.capture_seg (e : Env) (pos : Nat) (v : Row) (t : State) : ((e.capture pos v t).ctx e.g).seg = (t.ctx e.g).seg := by
  unfold Env.capture
  split <;> simp

/-- Operand latches and a row result leave the segment of their context alone. -/
@[simp] theorem State.captures_seg (s : State) (g slot : Nat) (xs : List (Nat × Row)) (t : State) :
    ((s.captures g slot xs t).ctx g).seg = (t.ctx g).seg := by
  induction xs generalizing t with
  | nil => rfl
  | cons x xs ih => exact (ih _).trans (Env.capture_seg (s.env g slot) x.1 x.2 t)

@[simp] theorem State.vector_seg (s : State) (g slot lat : Nat) (nwb : Bool) (d : BitVec 6) (xs : List Row) (r : Row × Flags) (t : State) :
    ((s.vector g slot lat nwb d xs r t).ctx g).seg = (t.ctx g).seg := by
  simp [State.vector, State.givesRow]

/-- A scalar's key is none of a row that the freeze of R20 counts. -/
theorem sKey_not_row (i : Nat) : 192 ≤ sKey i := by unfold sKey; omega

/-- The field check of a row operation with one source (R15, R16). -/
theorem v2Ok_of_codes {d a : BitVec 6} (hd : dstCode d = true) (ha : srcCode a = true) : v2Ok d a = true := by rw [v2Ok, hd, ha]; rfl

/-- An instruction that is one operation on two scalars gives its value after its latency. -/
theorem State.Solo.runs_sca3 {s : State} {g : Nat} (h : s.Solo g) {i : Instr} {lat : Nat} {f : Word → Word → Word} {d a b : BitVec 6}
    {v : Word} (hi : i.wellFormed = true) (he : exec i s = issueSingle i 1 (sca3 lat f d a b) s) (hv : f (s.S g a) (s.S g b) = v) :
    s.Runs g i (s.givesS g 1 lat d v) := by
  subst hv
  refine he.trans (h.runs (f := s.givesS g 1 lat d (f (s.S g a) (s.S g b))) hi rfl rfl ?_ (fun _ => rfl) (fun _ => State.fly_seg ..))
  intro r hr
  simp only [sca3, List.mem_cons, List.not_mem_nil, or_false] at hr
  obtain rfl | rfl := hr <;> exact sKey_not_row _

/-- A row operation alone in its bundle, whose sources deliver, has its effect. -/
theorem State.Solo.runs_row {s : State} {g : Nat} (h : s.Solo g) {i : Instr} {slot : Nat} {op : SlotOp} {codes : List (BitVec 6)}
    {xs : List Row} {effect : State → State} (hi : i.wellFormed = true) (hx : s.Sources g slot codes xs)
    (hreads : op.reads = fun e => e.rowKeys codes) (hqueues : ∀ q ∈ op.queues, q ∈ queueCodes codes)
    (hw : op.wait (envOf s g slot (ctlOf i)) s = none)
    (hs : ∀ t, op.issue (envOf s g slot (ctlOf i)) t = .ok (effect t)) (hseg : ∀ t, ((effect t).ctx g).seg = (t.ctx g).seg) :
    issueSingle i slot op s = .next (s.issue g effect op.fences op.tells) := by
  obtain ⟨-, hports, hqueue⟩ := hx
  refine issueSingle_runs h hi (fun q hq => hqueue q (hqueues q hq)) hw ?_ (fun _ => hs _) (fun f => ?_)
  · rw [hreads]; exact hports.noFreeze slot _
  · rw [hseg, State.updCtx_ctx_self]; exact h.noSeg

/-- An instruction that is one operation on one row: the source's latch captures it, the result is under way. -/
theorem State.Solo.runs_vec1 {s : State} {g : Nat} (h : s.Solo g) {i : Instr} {slot lat : Nat} {nwb : Bool} {d a : BitVec 6}
    {f : Row → Row × Flags} {x : Row} {r : Row × Flags} (hi : i.wellFormed = true) (he : exec i s = issueSingle i slot (vec1 lat nwb d a f) s)
    (hx : s.Sources g slot [a] [x]) (hr : f x = r) : s.Runs g i (s.vector g slot lat nwb d [x] r) := by
  subst hr
  have ⟨hsrc, _⟩ := hx.1
  refine he.trans (h.runs_row (effect := s.vector g slot lat nwb d [x] (f x)) hi hx rfl (fun _ => id) rfl (fun t => ?_)
    (fun _ => State.vector_seg ..))
  simp only [vec1, envOf_src, hsrc]
  rfl

/-- An instruction that is one operation on two rows and on its destination's: three latches capture them, the result is under way. -/
theorem State.Solo.runs_vec3 {s : State} {g : Nat} (h : s.Solo g) {i : Instr} {slot lat : Nat} {nwb : Bool} {d a b : BitVec 6}
    {f : Row → Row → Row → Row × Flags} {x y c : Row} {r : Row × Flags} (hi : i.wellFormed = true)
    (he : exec i s = issueSingle i slot (vec3 lat nwb d a b f) s)
    (hx : s.Sources g slot [a, b, d] [x, y, c]) (hr : f c x y = r) : s.Runs g i (s.vector g slot lat nwb d [x, y, c] r) := by
  subst hr
  have ⟨ha, hb, hd, _⟩ := hx.1
  refine he.trans (h.runs_row (effect := s.vector g slot lat nwb d [x, y, c] (f c x y)) hi hx rfl (fun q hq => ?_) rfl (fun t => ?_)
    (fun _ => State.vector_seg ..))
  · exact List.Sublist.mem hq (List.Sublist.filterMap _ (by simp))
  · simp only [vec3, envOf_src, ha, hb, hd]
    rfl

end Sys2Proof.Machine

/-! ### Division (R47) -/

namespace Sys2Proof.Machine

/-- SignExt of R17 is the two's complement of the low bits. -/
theorem signExt_eq_toInt (v n : Nat) : signExt v n = (BitVec.ofNat n v).toInt := by
  simp only [signExt, BitVec.toInt_eq_toNat_cond, BitVec.toNat_ofNat]
  cases n with
  | zero => simp [Nat.mod_one]
  | succ n =>
    have : 2 * (v % 2 ^ (n + 1)) < 2 ^ (n + 1) ↔ v % 2 ^ (n + 1) < 2 ^ n := by rw [Nat.pow_succ]; omega
    simp [this]

theorem signExt_toNat {n : Nat} (x : BitVec n) : signExt x.toNat n = x.toInt := by
  rw [signExt_eq_toInt, BitVec.ofNat_toNat, BitVec.setWidth_eq]

theorem natCast_two_pow (n : Nat) : ((2 ^ n : Nat) : Int) = 2 ^ n := Int.natCast_pow 2 n

/-- An integer reduced to a word's range is the word of the integer. -/
theorem ofNat_emod_toNat (n : Nat) (i : Int) : BitVec.ofNat n (i % 2 ^ n).toNat = BitVec.ofInt n i := by
  rw [BitVec.ofInt, BitVec.ofNatLT_eq_ofNat, Int.ofNat_eq_natCast, natCast_two_pow]

theorem word_toNat_eq_zero (y : Word) : y.toNat = 0 ↔ y = 0 := (BitVec.toNat_eq (x := y) (y := 0#64)).symm

theorem word_toInt_eq_zero (y : Word) : y.toInt = 0 ↔ y = 0 := BitVec.toInt_inj (x := y) (y := 0#64)

theorem divN_cases (x y : Word) :
    BitVec.ofNat 64 (divN 64 x.toNat y.toNat) = if y = 0 then BitVec.allOnes 64 else BitVec.ofNat 64 (x.toNat / y.toNat) := by
  simp only [divN, word_toNat_eq_zero]
  split
  · rfl
  · rfl

theorem remN_cases (x y : Word) :
    BitVec.ofNat 64 (remN x.toNat y.toNat) = if y = 0 then x else BitVec.ofNat 64 (x.toNat % y.toNat) := by
  simp only [remN, word_toNat_eq_zero]
  split
  · rw [BitVec.ofNat_toNat, BitVec.setWidth_eq]
  · rfl

/-- The one quotient that does not fit, I_MIN by −1, wraps to I_MIN. -/
theorem divS_cases (x y : Word) :
    BitVec.ofNat 64 (divS 64 x.toNat y.toNat) =
      if y = 0 ∨ (x = BitVec.intMin 64 ∧ y = BitVec.allOnes 64) then BitVec.intMin 64 else BitVec.ofInt 64 (x.toInt.tdiv y.toInt) := by
  simp only [divS, signExt_toNat, word_toInt_eq_zero]
  by_cases hy : y = 0
  · rw [if_pos hy, if_pos (.inl hy)]; rfl
  · rw [if_neg hy, ofNat_emod_toNat]
    by_cases hov : x = BitVec.intMin 64 ∧ y = BitVec.allOnes 64
    · rw [if_pos (.inr hov), hov.1, hov.2]; decide
    · rw [if_neg (not_or.mpr ⟨hy, hov⟩)]

theorem remS_cases (x y : Word) :
    BitVec.ofNat 64 (remS 64 x.toNat y.toNat) =
      if y = 0 then x else if x = BitVec.intMin 64 ∧ y = BitVec.allOnes 64 then 0
      else BitVec.ofInt 64 (x.toInt - x.toInt.tdiv y.toInt * y.toInt) := by
  simp only [remS, signExt_toNat, word_toInt_eq_zero]
  by_cases hy : y = 0
  · rw [if_pos hy, if_pos hy, BitVec.ofNat_toNat, BitVec.setWidth_eq]
  · rw [if_neg hy, if_neg hy, ofNat_emod_toNat]
    by_cases hov : x = BitVec.intMin 64 ∧ y = BitVec.allOnes 64
    · rw [if_pos hov, hov.1, hov.2]; decide
    · rw [if_neg hov, Int.tmod_def, Int.mul_comm]

end Sys2Proof.Machine

namespace Sys2Proof.Proofs
open Sys2Proof Sys2Proof.Machine

/-- Settles O6: each operation gives its 64-bit value, which the case lemmas read off R47's table. -/
theorem divisionNeverTraps : Obligations.DivisionNeverTraps := by
  intro s g h d a b
  exact ⟨h.runs_sca3 rfl rfl (divN_cases _ _), h.runs_sca3 rfl rfl (remN_cases _ _), h.runs_sca3 rfl rfl (divS_cases _ _),
    h.runs_sca3 rfl rfl (remS_cases _ _)⟩

/-- Settles O23: each is one operation on the row its source delivers. -/
theorem vectorFunctionsAndConversion : Obligations.VectorFunctionsAndConversion := by
  intro s g h vs f from_ nwb inf d a x hd ha hx
  have hv := v2Ok_of_codes hd ha
  refine ⟨fun hf => ?_, fun hne hinf => h.runs_vec1 ?_ rfl hx rfl⟩
  · have hok : (f.isFloat && v2Ok d a) = true := by rw [hf, hv]; rfl
    exact ⟨h.runs_vec1 hok rfl hx rfl, h.runs_vec1 hok rfl hx rfl, h.runs_vec1 hok rfl hx rfl, h.runs_vec1 hok rfl hx rfl⟩
  · have hto : (!inf || f.infOk) = true := by
      cases inf with
      | false => rfl
      | true => exact hinf rfl
    simp [Instr.wellFormed, legal, hv, hne, hto]

end Sys2Proof.Proofs

/-! ### Reductions (R67, R126) -/

namespace Sys2Proof.Machine

/-- A list of n·m elements cut into m chunks of n: chunk i holds elements n·i to n·i + n − 1. -/
theorem chunks_map_range {α : Type} (n m : Nat) (hn : 0 < n) (h : Nat → α) :
    chunks n m ((List.range (n * m)).map h) = (List.range m).map fun i => (List.range n).map fun k => h (n * i + k) := by
  induction m generalizing h with
  | zero => rfl
  | succ m ih =>
    have hsplit : (List.range (n * (m + 1))).map h = (List.range n).map h ++ (List.range (n * m)).map fun j => h (n + j) := by
      rw [Nat.mul_succ, Nat.add_comm, List.range_add, List.map_append, List.map_map]; rfl
    have hne : ((List.range n).map h ++ (List.range (n * m)).map fun j => h (n + j)).isEmpty = false := by
      simp [Nat.ne_of_gt hn]
    rw [chunks, hsplit, hne, if_neg Bool.false_ne_true, List.take_left' (by simp), List.drop_left' (by simp), ih,
      List.range_succ_eq_map, List.map_cons, List.map_map]
    simp [Nat.mul_succ, Nat.add_comm, Nat.add_left_comm]

/-- A byte of a row as VDOT4 reads it under I8 or N8 (R126). -/
def dotByte (f : VFmt) (r : Row) (i : Nat) : Int :=
  if f = .i8 then (BitVec.ofNat 8 (r.toNat / 2 ^ (8 * i))).toInt else (BitVec.ofNat 8 (r.toNat / 2 ^ (8 * i))).toNat

theorem intLane_byte {f : VFmt} (hf : f = .i8 ∨ f = .n8) (r : Row) (i : Nat) :
    intLane f (r.toNat / 2 ^ (8 * i) % 2 ^ 8) = dotByte f r i := by
  unfold dotByte
  obtain rfl | rfl := hf
  · have hmod : BitVec.ofNat 8 (r.toNat / 2 ^ (8 * i) % 2 ^ 8) = BitVec.ofNat 8 (r.toNat / 2 ^ (8 * i)) :=
      BitVec.eq_of_toNat_eq (by simp)
    rw [if_pos rfl, ← hmod]
    exact signExt_eq_toInt _ 8
  · rw [if_neg (by decide), BitVec.toNat_ofNat]
    rfl

/-- VDOT4 lane by lane (R126): each 32-bit lane of c with the four products of its bytes of a and b, wrapped. -/
theorem dot4_eq {f : VFmt} (hf : f = .i8 ∨ f = .n8) (c a b : Row) :
    dot4 f c a b = packRow 32 ((List.range 64).map fun i =>
      (((c.toNat / 2 ^ (32 * i) % 2 ^ 32 : Nat) + ((List.range 4).map fun k => dotByte f a (4 * i + k) * dotByte f b (4 * i + k)).sum) %
        (2 ^ 32 : Int)).toNat) := by
  have hquads := chunks_map_range 4 64 (by decide) fun j => dotByte f a j * dotByte f b j
  simp only [dot4, lanes, List.zip_map', List.map_map, Function.comp_def, intLane_byte hf]
  rw [show 2048 / 8 = 4 * 64 from rfl, hquads, show 2048 / 32 = 64 from rfl]
  simp only [List.zip_map', List.map_map, Function.comp_def, List.sum_eq_foldl, wrap, natCast_two_pow]

end Sys2Proof.Machine

namespace Sys2Proof.Proofs
open Sys2Proof Sys2Proof.Machine

/-- Settles O25: the reductions and the scan are operations on one row, VDOT4 is one on three whose lanes `dot4_eq` gives. -/
theorem vectorReductions : Obligations.VectorReductions := by
  intro s g h vs f nwb d a b x y c
  refine ⟨fun hd ha hx => ?_, fun hf hd ha hb hx => ?_⟩
  · have hok := v2Ok_of_codes hd ha
    exact ⟨h.runs_vec1 hok rfl hx rfl, h.runs_vec1 hok rfl hx rfl, h.runs_vec1 hok rfl hx rfl, h.runs_vec1 hok rfl hx rfl⟩
  · have hok : Instr.wellFormed (.vdot4 vs f nwb d a b) = true := by
      have hfmt : (f == .i8 || f == .n8) = true := by obtain rfl | rfl := hf <;> rfl
      rw [Instr.wellFormed, legal, v3Ok, hfmt, hd, ha, hb]
      rfl
    exact h.runs_vec3 hok rfl hx (Prod.ext (dot4_eq hf c x y) rfl)

end Sys2Proof.Proofs

/-! ### Vector arithmetic, logic, shifts and compares (R104, R106, R109, R111 to R116) -/

namespace Sys2Proof.Machine

/-- The field check of a row operation with two sources (R15, R16). -/
theorem v3Ok_of_codes {d a b : BitVec 6} (hd : dstCode d = true) (ha : srcCode a = true) (hb : srcCode b = true) : v3Ok d a b = true := by
  rw [v3Ok, hd, ha, hb]; rfl

/-- An instruction that is one operation on two rows: two latches capture them, the result is under way. -/
theorem State.Solo.runs_vec2 {s : State} {g : Nat} (h : s.Solo g) {i : Instr} {slot lat : Nat} {nwb : Bool} {d a b : BitVec 6}
    {f : Row → Row → Row × Flags} {x y : Row} {r : Row × Flags} (hi : i.wellFormed = true)
    (he : exec i s = issueSingle i slot (vec2 lat nwb d a b f) s)
    (hx : s.Sources g slot [a, b] [x, y]) (hr : f x y = r) : s.Runs g i (s.vector g slot lat nwb d [x, y] r) := by
  subst hr
  have ⟨ha, hb, _⟩ := hx.1
  refine he.trans (h.runs_row (effect := s.vector g slot lat nwb d [x, y] (f x y)) hi hx rfl (fun _ => id) rfl (fun t => ?_)
    (fun _ => State.vector_seg ..))
  simp only [vec2, envOf_src, ha, hb]
  rfl

/-! An integer lane's result is the exact one modulo 2^w, without a flag (R112 to R115). -/

/-- A lane result of w bits that is the integer z wrapped, with no flag. -/
def IsLane (w : Nat) (r : Nat × Flags) (z : Int) : Prop := r.1 < 2 ^ w ∧ (r.1 : Int) = z % 2 ^ w ∧ r.2 = 0

theorem isLane_wrap (w : Nat) (z : Int) : IsLane w (noFlags (wrap w z)) z := by
  have hpos : (0 : Int) < 2 ^ w := Int.pow_pos (by decide)
  have hcast : (wrap w z : Int) = z % 2 ^ w := by
    rw [wrap, natCast_two_pow, Int.toNat_of_nonneg (Int.emod_nonneg z (Int.ne_of_gt hpos))]
  refine ⟨?_, hcast, rfl⟩
  have hlt := Int.emod_lt_of_pos z hpos
  rw [← hcast, ← natCast_two_pow] at hlt
  exact Int.ofNat_lt.mp hlt

theorem isLane_of_lt {w n : Nat} (hn : n < 2 ^ w) : IsLane w (noFlags n) n := by
  refine ⟨hn, ?_, rfl⟩
  rw [← natCast_two_pow, Int.emod_eq_of_lt (Int.natCast_nonneg n) (Int.ofNat_lt.mpr hn)]
  rfl

theorem isLane_mod (w n : Nat) : IsLane w (noFlags (n % 2 ^ w)) n := by
  refine ⟨Nat.mod_lt _ (Nat.two_pow_pos w), ?_, rfl⟩
  rw [← natCast_two_pow]
  rfl

/-- An integer lane reads as its two's complement under a signed format, else as itself (R112). -/
theorem intLane_of_lt {f : VFmt} {a : Nat} (ha : a < 2 ^ f.width) :
    intLane f a = if f.isSigned ∧ 2 ^ (f.width - 1) ≤ a then (a : Int) - 2 ^ f.width else a := by
  cases hs : f.isSigned with
  | false => rw [intLane, hs, if_neg Bool.false_ne_true, if_neg fun h => Bool.false_ne_true h.1]
  | true =>
    simp only [intLane, hs, signExt, Nat.mod_eq_of_lt ha, if_true]
    by_cases hlow : a < 2 ^ (f.width - 1)
    · rw [if_pos hlow, if_neg fun h => Nat.not_le_of_lt hlow h.2]
    · rw [if_neg hlow, if_pos ⟨trivial, Nat.le_of_not_lt hlow⟩]

theorem arithLane_isLane {f : VFmt} (hf : f.isFloat = false) (fl : FFmt → Nat → Nat → Nat × Flags) (it : Int → Int → Int) (a b : Nat) :
    IsLane f.width (arithLane f fl it a b) (it (intLane f a) (intLane f b)) := by
  rw [arithLane, hf]
  exact isLane_wrap ..

theorem arithLane3_isLane {f : VFmt} (hf : f.isFloat = false) (fl : FFmt → Nat → Nat → Nat → Nat × Flags)
    (it : Int → Int → Int → Int) (c a b : Nat) :
    IsLane f.width (arithLane3 f fl it c a b) (it (intLane f c) (intLane f a) (intLane f b)) := by
  rw [arithLane3, hf]
  exact isLane_wrap ..

theorem minLane_isLane {f : VFmt} (hf : f.isFloat = false) (a b : Nat) :
    IsLane f.width (minLane f a b) (min (intLane f a) (intLane f b)) := by
  have hmin : min (intLane f a) (intLane f b) = if intLane f b < intLane f a then intLane f b else intLane f a := by
    split <;> omega
  rw [hmin]
  exact arithLane_isLane hf ..

theorem maxLane_isLane {f : VFmt} (hf : f.isFloat = false) (a b : Nat) :
    IsLane f.width (maxLane f a b) (max (intLane f a) (intLane f b)) := by
  have hmax : max (intLane f a) (intLane f b) = if intLane f a < intLane f b then intLane f b else intLane f a := by
    split <;> omega
  rw [hmax]
  exact arithLane_isLane hf ..

theorem absLane_isLane {f : VFmt} (hf : f.isFloat = false) (a : Nat) : IsLane f.width (absLane f a) (intLane f a).natAbs := by
  rw [absLane, hf]
  exact isLane_wrap ..

theorem negLane_isLane {f : VFmt} (hf : f.isFloat = false) (a : Nat) : IsLane f.width (negLane f a) (-intLane f a) := by
  rw [negLane, hf]
  exact isLane_wrap ..

theorem laneMin_le_laneMax (f : VFmt) : laneMin f ≤ laneMax f := by cases f <;> decide

theorem clampI_eq_max_min {lo hi : Int} (h : lo ≤ hi) (z : Int) : clampI lo hi z = max lo (min hi z) := by
  unfold clampI
  split
  · omega
  · split <;> omega

/-- The saturating forms clamp the exact result to the format's range (R113). -/
theorem satLane_isLane (f : VFmt) (it : Int → Int → Int) (a b : Nat) :
    IsLane f.width (satLane f it a b) (max (laneMin f) (min (laneMax f) (it (intLane f a) (intLane f b)))) := by
  rw [← clampI_eq_max_min (laneMin_le_laneMax f)]
  exact isLane_wrap ..

theorem shiftLane_shl_isLane (f : VFmt) (a b : Nat) :
    IsLane f.width (shiftLane f (fun x n => x * 2 ^ n % 2 ^ f.width) a b) ((a : Int) * 2 ^ (b % f.width)) := by
  rw [← natCast_two_pow, ← Int.natCast_mul]
  exact isLane_mod ..

theorem shiftLane_shr_isLane {f : VFmt} {a : Nat} (ha : a < 2 ^ f.width) (b : Nat) :
    IsLane f.width (shiftLane f (fun x n => x / 2 ^ n) a b) ((a : Int) / 2 ^ (b % f.width)) := by
  rw [← natCast_two_pow, ← Int.natCast_ediv]
  exact isLane_of_lt (Nat.lt_of_le_of_lt (Nat.div_le_self ..) ha)

theorem shiftLane_sra_isLane {f : VFmt} (hs : f.isSigned = true) (a b : Nat) :
    IsLane f.width (shiftLane f (fun x n => wrap f.width (signExt x f.width / 2 ^ n)) a b) (intLane f a / 2 ^ (b % f.width)) := by
  rw [intLane, if_pos hs]
  exact isLane_wrap ..

/-- Compares give all ones or zeros (R115). -/
theorem cmpLane_isLane {f : VFmt} (hf : f.isFloat = false) (fl : FV → FV → Bool) (p : Int → Int → Prop) [DecidableRel p] (a b : Nat) :
    IsLane f.width (cmpLane f fl (fun x y => decide (p x y)) a b) (if p (intLane f a) (intLane f b) then 2 ^ f.width - 1 else 0) := by
  have hpos := Nat.two_pow_pos f.width
  have hones : ((2 ^ f.width - 1 : Nat) : Int) = 2 ^ f.width - 1 := by rw [← natCast_two_pow]; omega
  by_cases hp : p (intLane f a) (intLane f b)
  · simp only [cmpLane, hf, hp, decide_true, Bool.false_eq_true, if_true, if_false, ← hones]
    exact isLane_of_lt (Nat.sub_lt hpos Nat.one_pos)
  · simp only [cmpLane, hf, hp, decide_false, Bool.false_eq_true, if_false]
    exact isLane_of_lt hpos

end Sys2Proof.Machine

namespace Sys2Proof.Proofs
open Sys2Proof Sys2Proof.Machine

/-- Settles O20: each is one operation on the rows its sources deliver. -/
theorem vectorArithmetic : Obligations.VectorArithmetic := by
  intro s g h vs f nwb d a b x y c lat w one two
  refine ⟨fun hd ha hb => ⟨fun hx => ?_, fun hx => ?_⟩, fun hn hd ha hx => ?_⟩
  · have hok := v3Ok_of_codes hd ha hb
    exact ⟨h.runs_vec2 hok rfl hx rfl, h.runs_vec2 hok rfl hx rfl, h.runs_vec2 hok rfl hx rfl, h.runs_vec2 hok rfl hx rfl,
      h.runs_vec2 hok rfl hx rfl, h.runs_vec2 hok rfl hx rfl⟩
  · have hok := v3Ok_of_codes hd ha hb
    exact ⟨h.runs_vec3 hok rfl hx rfl, h.runs_vec3 hok rfl hx rfl⟩
  · have hok : (f.notN && v2Ok d a) = true := by rw [hn, v2Ok_of_codes hd ha]; rfl
    exact ⟨h.runs_vec1 hok rfl hx rfl, h.runs_vec1 hok rfl hx rfl⟩

/-- Settles O21: each lane function gives the exact integer result of its operands' values, clamped where it saturates, and wraps it. -/
theorem integerLanes : Obligations.IntegerLanes := by
  intro f hf a ha b hb c hc m v lo hi is
  have hv {z : Nat} (hz : z < 2 ^ f.width) : v z = intLane f z := (intLane_of_lt hz).symm
  rw [hv ha, hv hb, hv hc]
  exact ⟨arithLane_isLane hf .., arithLane_isLane hf .., arithLane_isLane hf .., arithLane3_isLane hf .., arithLane3_isLane hf ..,
    minLane_isLane hf a b, maxLane_isLane hf a b, arithLane_isLane hf .., absLane_isLane hf a, negLane_isLane hf a,
    satLane_isLane f _ a b, satLane_isLane f _ a b, shiftLane_shl_isLane f a b, shiftLane_shr_isLane ha b,
    fun hs => shiftLane_sra_isLane hs a b, cmpLane_isLane hf FV.eqv (· = ·) a b, cmpLane_isLane hf FV.lt (· < ·) a b,
    cmpLane_isLane hf (fun x y => FV.lt x y || FV.eqv x y) (· ≤ ·) a b⟩

/-- Settles O22: each is one operation on the rows its sources deliver; VSEL's third is its destination's. -/
theorem vectorLogicShiftsCompares : Obligations.VectorLogicShiftsCompares := by
  intro s g h vs f nwb d a b x y c w two hd ha hb
  have hok := v3Ok_of_codes hd ha hb
  refine ⟨fun hx => ?_, fun hx => h.runs_vec3 hok rfl hx rfl⟩
  refine ⟨h.runs_vec2 hok rfl hx rfl, h.runs_vec2 hok rfl hx rfl, h.runs_vec2 hok rfl hx rfl, h.runs_vec2 hok rfl hx rfl,
    h.runs_vec2 hok rfl hx rfl, h.runs_vec2 hok rfl hx rfl, fun hf => ?_⟩
  have hint : (!f.isFloat && v3Ok d a b) = true := by rw [hf, hok]; rfl
  refine ⟨h.runs_vec2 hint rfl hx rfl, h.runs_vec2 hint rfl hx rfl, h.runs_vec2 hint rfl hx rfl, h.runs_vec2 hint rfl hx rfl, fun hs => ?_⟩
  have hsgn : (f.isSigned && v3Ok d a b) = true := by rw [hs, hok]; rfl
  exact h.runs_vec2 hsgn rfl hx rfl

end Sys2Proof.Proofs
